-- ==== Sys2Proof/Config.lean ====
section
/-! DEFINITION. What is fixed for the machine and what the spec leaves open.
The OPEN parameters are the type `Params` (R5, R6, R36): an argument of the model, held beside the registers, so that
a claim over all states is a claim for every admissible value. The free values (the `any` of R13) are constants with no
body: no proof can see a value of theirs. -/

namespace Sys2Proof

/-- The parameters a model takes (R4 to R6, spec/92_eei_decisions.md D5, D16). -/
structure Params where
  /-- The low four bits of `DEFAULT_PATTERN`, the LED part. Its select bits are 0 (R5), so these bits are all of it
  and an inadmissible pattern cannot be written down. -/
  leds : BitVec 4
  /-- `T_RELEASE`: `none` on this hardware (R6). With `some n` the wait ends by R132. -/
  tRelease : Option Nat
deriving DecidableEq, Repr

/-- `DEFAULT_PATTERN`, eight bits of which bits 7 to 4 are 0 (R5). -/
def Params.defaultPattern (p : Params) : BitVec 8 := 0#4 ++ p.leds

namespace Config

/-- The LED part of the compiled-in default pattern: OPEN, the spec gives it no value (R5, N10). -/
opaque defaultLeds : BitVec 4

/-- `T_RELEASE = none`, the value this hardware takes (R6). -/
def tRelease : Option Nat := none

/-! The draws of RESET (R143), one function per register that RESET leaves `any`, applied to the count of draws. -/

/-- What RESET leaves in `OUT`. -/
opaque resetOut : Nat → BitVec 8
/-- What RESET leaves in `IDX`. -/
opaque resetIdx : Nat → BitVec 2
/-- What RESET leaves in `ANY`. -/
opaque resetAny : Nat → Bool
/-- What RESET leaves in `WAITCNT`, brought into its range 0 to `n` (R26) where it is used. -/
opaque resetWaitcnt : Nat → Nat
/-- What RESET leaves in `PEND`. -/
opaque resetPend : Nat → BitVec 2
/-- What RESET leaves in `IE`. -/
opaque resetIe : Nat → BitVec 2
/-- What RESET leaves in `EDGE`. -/
opaque resetEdge : Nat → BitVec 2
/-- What RESET leaves in `SRVIS`. -/
opaque resetSrvis : Nat → BitVec 8

/-- What a change of level leaves in the line's pending flag while the line's edge sense is not RISING (R142). -/
opaque edgePend : Nat → Bool

/-! What the contracts of the collaborators leave open (spec/45_collaborator_contracts.md); nothing of the block
depends on these. -/

/-- The row of the primary readout (R160: not given). -/
opaque primaryRow : Nat
/-- How many rows further below than the next one the button label stands (R155: 'a fixed row below'). -/
opaque labelRowGap : Nat
/-- The column of the button label (R155: not given). -/
opaque labelColumn : Nat
/-- The fallback label (R154: its text is not given). -/
opaque unrecognizedLabel : List Char
/-- Whether right alignment pads with spaces or offsets the column (R160, N21). -/
opaque padsReadout : Bool
/-- Whether a tie of the rounding to tenths goes away from zero, by the value rounded (R162, U6). -/
opaque tieGoesAway : Int → Bool
/-- Whether a negative value that rounds to zero keeps its sign (spec/95_test_vectors.md section 6). -/
opaque negativeZeroShown : Bool

end Config

end Sys2Proof
end

