-- ==== Sys2Proof/Word.lean ====
section
/-! DEFINITION. The words the hardware's operations are encoded in (spec/30_encoding.md R70).
There is no byte, no address and no instruction memory (R51): a `SEQ4` code is the content of the register `SEQ`,
an `EVT2` word is the label of one step of the environment. The two formats are separate spaces: the code 0x2 of
`SEQ4` and the word 0b10 of `EVT2` are different words. -/

namespace Sys2Proof

/-- A word of one of the two formats of R70. Bit 0 is the least significant bit (R10). -/
inductive CodeWord where
  /-- Format `SEQ4`: the four bits of `SEQ` (R71). -/
  | seq4 (code : BitVec 4)
  /-- Format `EVT2`: bit 1 is the new level, bit 0 the line (R72). -/
  | evt2 (word : BitVec 2)
deriving DecidableEq, Repr

end Sys2Proof
end

