-- ==== Sys2Proof/Syntax.lean ====
section
/-! DEFINITION. The instructions: one constructor per row of spec/opcode_table.json.
Thirteen sequencer operations (format `SEQ4`, no operand fields: every operand is a named register, R70) and the two
environment events (format `EVT2`, one line operand). RESET has no encoding (R70) and is no instruction. -/

namespace Sys2Proof

/-- InterruptLine, one of the two lines (R75, R180). `buttonArray` is also the sense line (R14). -/
inductive Line where
  | buttonArray
  | encoderA
deriving DecidableEq, Repr

/-- The number of a line: its bit in `PEND`, `IE`, `EDGE` and `LVL`, its cause code, and its rank in the priority
order, the lower number first (R7, R75, R180). -/
def Line.index : Line → Nat
  | .buttonArray => 0
  | .encoderA => 1

/-- The operations of the block and of its environment. -/
inductive Instr where
  /-- 0x0, R90. -/
  | bootLoad
  /-- 0x1, R91. -/
  | cfgEdge
  /-- 0x2, R92. -/
  | cfgClr
  /-- 0x3, R93. -/
  | cfgEn
  /-- 0x4, R100: interrupt acceptance. -/
  | idle
  /-- 0x5, R101. -/
  | dispatch
  /-- 0x6, R116. -/
  | scanDrive
  /-- 0x7, R118. -/
  | scanSample
  /-- 0x8, R120. -/
  | restore
  /-- 0x9, R130, and R132 with a finite `T_RELEASE`. -/
  | awaitRelease
  /-- 0xA, R103. -/
  | rotCall
  /-- 0xB, R104. -/
  | clrAll
  /-- 0xC, R106 (RETURN). -/
  | ret
  /-- 0b1l, R140: the environment raises line `l`. -/
  | rise (l : Line)
  /-- 0b0l, R141: the environment lowers line `l`. -/
  | fall (l : Line)
deriving DecidableEq, Repr

/-- The name of a line as an event is written (R82). -/
def Line.name : Line → String
  | .buttonArray => "BUTTON_ARRAY"
  | .encoderA => "ENCODER_A"

/-- How an operation is written: its mnemonic alone, an event followed by its line (R82). -/
def Instr.print : Instr → String
  | .bootLoad => "BOOT_LOAD"
  | .cfgEdge => "CFG_EDGE"
  | .cfgClr => "CFG_CLR"
  | .cfgEn => "CFG_EN"
  | .idle => "IDLE"
  | .dispatch => "DISPATCH"
  | .scanDrive => "SCAN_DRIVE"
  | .scanSample => "SCAN_SAMPLE"
  | .restore => "RESTORE"
  | .awaitRelease => "AWAIT_RELEASE"
  | .rotCall => "ROT_CALL"
  | .clrAll => "CLR_ALL"
  | .ret => "RETURN"
  | .rise l => "RISE " ++ l.name
  | .fall l => "FALL " ++ l.name

/-- Whether the sequencer executes the operation; the other two are steps of the environment (R9, R70). -/
def Instr.isSequencer : Instr → Bool
  | .bootLoad | .cfgEdge | .cfgClr | .cfgEn | .idle | .dispatch | .scanDrive | .scanSample | .restore
  | .awaitRelease | .rotCall | .clrAll | .ret => true
  | .rise _ | .fall _ => false

/-! The composite names of R83: fixed sequences of sequencer operations, which add no behaviour. -/

/-- `BOOT`. -/
def Composite.boot : List Instr := [.bootLoad, .cfgEdge, .cfgClr, .cfgEn]

/-- `SCAN`: drive and sample for the four positions, then the restore. -/
def Composite.scan : List Instr :=
  [.scanDrive, .scanSample, .scanDrive, .scanSample, .scanDrive, .scanSample, .scanDrive, .scanSample, .restore]

/-- `SERVICE_BUTTON` with `polls` polls of the wait: none when no sample was asserted. -/
def Composite.serviceButton (polls : Nat) : List Instr :=
  Composite.scan ++ List.replicate polls .awaitRelease

/-- `SERVICE_ENCODER`. -/
def Composite.serviceEncoder : List Instr := [.rotCall]

/-- `INVOCATION` around a service (one of the two above, or nothing). -/
def Composite.invocation (service : List Instr) : List Instr :=
  [.idle, .dispatch] ++ service ++ [.clrAll, .ret]

end Sys2Proof
end

