-- ==== Sys2Proof/WellFormed.lean ====
section
/-! DEFINITION. What is well formed: code words that are not reserved, and admissible parameters.
An instruction needs no check of its own: sequencer operations have no operand fields (R70), a line is one of two
(R75), and there is no illegal but decodable operation (R81). -/

namespace Sys2Proof

/-- A code word that some operation owns: a `SEQ4` code other than 0xD, 0xE and 0xF (R80), or any `EVT2` word (R72). -/
def CodeWord.wf : CodeWord → Bool
  | .seq4 code => decide (code.toNat ≤ 0xC)
  | .evt2 _ => true

/-- `DEFAULT_PATTERN[7:4] = 0` (R5). -/
def admissiblePattern (pattern : BitVec 8) : Bool := pattern.extractLsb 7 4 == 0#4

/-- The parameters with a given eight-bit default pattern; an inadmissible pattern is refused rather than run with
(spec/95_test_vectors.md 3.1). -/
def Params.ofPattern (pattern : BitVec 8) (tRelease : Option Nat) : Option Params :=
  if admissiblePattern pattern then some ⟨pattern.extractLsb 3 0, tRelease⟩ else none

end Sys2Proof
end

