-- ==== Sys2Proof/Decode.lean ====
section
/-! DEFINITION. Decoding, total on the words of both formats and rejecting the reserved codes by name (R71, R72, R79,
R80), then the encoder, and the opcode table's rows. -/

namespace Sys2Proof

/-- Why a word has no instruction. -/
inductive DecodeError where
  /-- `SEQ` holds 0xD, 0xE or 0xF (R80). -/
  | reservedSeq (code : BitVec 4)
deriving DecidableEq, Repr

/-- The thirteen codes of R71; the other three are reserved (R80). -/
def decodeSeq4 (code : BitVec 4) : Except DecodeError Instr :=
  match code.toNat with
  | 0x0 => .ok .bootLoad
  | 0x1 => .ok .cfgEdge
  | 0x2 => .ok .cfgClr
  | 0x3 => .ok .cfgEn
  | 0x4 => .ok .idle
  | 0x5 => .ok .dispatch
  | 0x6 => .ok .scanDrive
  | 0x7 => .ok .scanSample
  | 0x8 => .ok .restore
  | 0x9 => .ok .awaitRelease
  | 0xA => .ok .rotCall
  | 0xB => .ok .clrAll
  | 0xC => .ok .ret
  | _ => .error (.reservedSeq code)

/-- The line that bit 0 of an `EVT2` word names (R72). -/
def Line.ofBit (b : Bool) : Line := if b then .encoderA else .buttonArray

/-- An `EVT2` word: bit 1 set is RISE, clear is FALL (R72). All four words are defined. -/
def decodeEvt2 (word : BitVec 2) : Instr :=
  if word.getLsbD 1 then .rise (Line.ofBit (word.getLsbD 0)) else .fall (Line.ofBit (word.getLsbD 0))

/-- The instruction a word stands for. -/
def decode : CodeWord → Except DecodeError Instr
  | .seq4 code => decodeSeq4 code
  | .evt2 word => .ok (decodeEvt2 word)

/-! The codes of R71 by name, for the operations' successors. -/

namespace Code
/-- 0x0. -/
def bootLoad : BitVec 4 := 0x0#4
/-- 0x1. -/
def cfgEdge : BitVec 4 := 0x1#4
/-- 0x2. -/
def cfgClr : BitVec 4 := 0x2#4
/-- 0x3. -/
def cfgEn : BitVec 4 := 0x3#4
/-- 0x4. -/
def idle : BitVec 4 := 0x4#4
/-- 0x5. -/
def dispatch : BitVec 4 := 0x5#4
/-- 0x6. -/
def scanDrive : BitVec 4 := 0x6#4
/-- 0x7. -/
def scanSample : BitVec 4 := 0x7#4
/-- 0x8. -/
def restore : BitVec 4 := 0x8#4
/-- 0x9. -/
def awaitRelease : BitVec 4 := 0x9#4
/-- 0xA. -/
def rotCall : BitVec 4 := 0xA#4
/-- 0xB. -/
def clrAll : BitVec 4 := 0xB#4
/-- 0xC. -/
def ret : BitVec 4 := 0xC#4
end Code

/-- The `EVT2` word of a new level on a line (R72). -/
def evtWord (level : Bool) (l : Line) : BitVec 2 :=
  match level, l with
  | false, .buttonArray => 0b00#2
  | false, .encoderA => 0b01#2
  | true, .buttonArray => 0b10#2
  | true, .encoderA => 0b11#2

/-- The word of an instruction (R71, R72). -/
def encode : Instr → CodeWord
  | .bootLoad => .seq4 Code.bootLoad
  | .cfgEdge => .seq4 Code.cfgEdge
  | .cfgClr => .seq4 Code.cfgClr
  | .cfgEn => .seq4 Code.cfgEn
  | .idle => .seq4 Code.idle
  | .dispatch => .seq4 Code.dispatch
  | .scanDrive => .seq4 Code.scanDrive
  | .scanSample => .seq4 Code.scanSample
  | .restore => .seq4 Code.restore
  | .awaitRelease => .seq4 Code.awaitRelease
  | .rotCall => .seq4 Code.rotCall
  | .clrAll => .seq4 Code.clrAll
  | .ret => .seq4 Code.ret
  | .rise l => .evt2 (evtWord true l)
  | .fall l => .evt2 (evtWord false l)

/-- The word, of a format told by its width, as spec/opcode_table.json numbers bits: two bits are an `EVT2` word,
any other width is read as a `SEQ4` code, whose bits above the fourth are 0. -/
def tableWord (nbits w : Nat) : Option CodeWord :=
  if nbits = 2 then (if w < 4 then some (.evt2 (BitVec.ofNat 2 w)) else none)
  else if w < 16 then some (.seq4 (BitVec.ofNat 4 w)) else none

/-- The decoder's answer on a word of the opcode table: none where it refuses. -/
def decodeTableWord (nbits w : Nat) : Option Instr :=
  match tableWord nbits w with
  | none => none
  | some word => (decode word).toOption

/-- A row of the opcode table: the word's width, and the match and mask of its fixed bits. -/
structure Row where
  width : Nat
  mask : Nat
  value : Nat
deriving DecidableEq, Repr

/-- The row of spec/opcode_table.json an instruction comes from, as that table writes it. -/
def Instr.row : Instr → Row
  | .bootLoad => ⟨4, 0xF, 0x0⟩
  | .cfgEdge => ⟨4, 0xF, 0x1⟩
  | .cfgClr => ⟨4, 0xF, 0x2⟩
  | .cfgEn => ⟨4, 0xF, 0x3⟩
  | .idle => ⟨4, 0xF, 0x4⟩
  | .dispatch => ⟨4, 0xF, 0x5⟩
  | .scanDrive => ⟨4, 0xF, 0x6⟩
  | .scanSample => ⟨4, 0xF, 0x7⟩
  | .restore => ⟨4, 0xF, 0x8⟩
  | .awaitRelease => ⟨4, 0xF, 0x9⟩
  | .rotCall => ⟨4, 0xF, 0xA⟩
  | .clrAll => ⟨4, 0xF, 0xB⟩
  | .ret => ⟨4, 0xF, 0xC⟩
  | .rise _ => ⟨2, 0x2, 0x2⟩
  | .fall _ => ⟨2, 0x2, 0x0⟩

/-- The width of a word's format (R70). -/
def CodeWord.width : CodeWord → Nat
  | .seq4 _ => 4
  | .evt2 _ => 2

/-- A word as a number, bit 0 the least significant. -/
def CodeWord.toNat : CodeWord → Nat
  | .seq4 code => code.toNat
  | .evt2 word => word.toNat

/-- A word meets a row: the row's width, and its fixed bits under its mask. -/
def Row.meets (r : Row) (w : CodeWord) : Bool :=
  w.width == r.width && (w.toNat &&& r.mask) == r.value

end Sys2Proof
end

