-- ==== Sys2Proof/Machine/State.lean ====
section
/-! DEFINITION. The state of the block, whole (spec/10_state.md R20), with the model's own fields that say who moves next
and which free value is drawn next; the reasons a step can stop; and the machine right after reset. -/

namespace Sys2Proof.Machine

/-- The externally visible actions that `TRACE` records (R35). They have no binary code and are equal when they are
the same constructor with the same arguments (R78). -/
inductive Event where
  /-- A byte sent to the shift register (R52). -/
  | srWrite (v : BitVec 8)
  /-- A read of the sense line during the scan at position `i` (R53). -/
  | sample (i : BitVec 2) (s : Bool)
  /-- A read of the sense line during the wait for release (R53). -/
  | poll (s : Bool)
  /-- The call of the button-identity callback (R55). -/
  | buttonReport (i : BitVec 2)
  /-- The call of the rotation handler (R56). -/
  | rotInvoke
  /-- Interrupt acceptance (R100). -/
  | enter
  /-- The clear of one line's flag by DISPATCH (R101). -/
  | pendClear (l : Line)
  /-- The clear of the whole pending register by CFG_CLR or CLR_ALL (R92, R104). -/
  | pendClearAll
  /-- The return from the interrupt (R106). -/
  | ret
  /-- The end of the wait by its bound, with a finite `T_RELEASE` only (R132). -/
  | releaseTimeout
deriving DecidableEq, Repr

/-- One turn of one of the three agents of R9. -/
inductive Turn where
  /-- The sequencer executes the operation that `SEQ` selects. -/
  | sequencer
  /-- The environment takes the step its `EVT2` word names (R72). -/
  | environment (word : BitVec 2)
  /-- The reset input is asserted (R143): RESET has no encoding. -/
  | reset
deriving DecidableEq, Repr

/-- The state: the registers of R20 under their own names, then three fields of the model's own. -/
structure State where
  /-- The sequencer state register, the block's program counter (R27). -/
  seq : BitVec 4
  /-- OutputPattern: bits 3 to 0 are `LED`, bits 7 to 4 are `SEL` (R21, R22). -/
  out : BitVec 8
  /-- The button position being scanned (R24). -/
  idx : BitVec 2
  /-- The one condition flag: a position of this scan read asserted (R25). -/
  any : Bool
  /-- The count of asserted polls (R26). It exists only with a finite `T_RELEASE`: with none no step reads or
  writes it. -/
  waitcnt : Nat
  /-- The pending flags, bit `l` for line `l` (R29). -/
  pend : BitVec 2
  /-- The per-line interrupt enables (R30). -/
  ie : BitVec 2
  /-- The edge selects, 0 RISING and 1 FALLING (R31). -/
  edge : BitVec 2
  /-- The global interrupt enable (R32). -/
  gie : Bool
  /-- The levels of the input lines, owned by the environment (R33). -/
  lvl : BitVec 2
  /-- The visible state of the shift register (R34). -/
  srvis : BitVec 8
  /-- The event history, oldest first (R35). -/
  trace : List Event
  /-- MODEL: the parameters `DEFAULT_PATTERN` and `T_RELEASE` (R5, R6). Not state of the block: no step changes
  them (R36). They stand here because they are an argument of the model. -/
  params : Params
  /-- MODEL: whose turn it is, the next first. When it is empty the sequencer has every further turn. -/
  agenda : List Turn
  /-- MODEL: how many times free values have been drawn. -/
  draws : Nat
deriving DecidableEq, Repr

/-- Why the machine stops. -/
inductive Fault where
  /-- Raised by a step whose turn is the sequencer's while `SEQ` holds the reserved code it carries, 0xD, 0xE or
  0xF (R80, R196). Safe: the spec names this fault. Only RESET leaves such a state. -/
  | reservedSeq (code : BitVec 4)
deriving DecidableEq, Repr

/-- Why an instruction is given no meaning. -/
inductive Refusal where
  /-- An arm of `exec` whose instruction has no meaning yet. Safe. No arm of this model answers so. -/
  | notModelled (mnemonic : String)
deriving DecidableEq, Repr

/-- The machine right after reset: `SEQ` at BOOT_LOAD (R27), `GIE` 0 (R32), `TRACE` empty (R35).
DESIGN CHOICE (assumption 1): every register whose reset value the spec leaves unspecified, and `LVL`, which is not
reset, holds 0 here. A RESET in the course of a run draws them instead (R143). -/
def State.reset : State where
  seq := 0x0#4
  out := 0x00#8
  idx := 0#2
  any := false
  waitcnt := 0
  pend := 0b00#2
  ie := 0b00#2
  edge := 0b00#2
  gie := false
  lvl := 0b00#2
  srvis := 0x00#8
  trace := []
  params := ⟨Config.defaultLeds, Config.tRelease⟩
  agenda := []
  draws := 0

end Sys2Proof.Machine
end

