-- ==== Sys2Proof/Machine/Operands.lean ====
section
/-! DEFINITION. The operand forms: one bit of a two-bit register by line (R7, R11), the level of a line (R53), and the
block's only computed operands, the transient pattern and the restored one (R73). -/

namespace Sys2Proof.Machine

/-- The bit of a line in a two-bit register, alone (R7, R75). -/
def lineMask : Line → BitVec 2
  | .buttonArray => 0b01#2
  | .encoderA => 0b10#2

/-- `r[l]` (R11). -/
def lineBit (r : BitVec 2) (l : Line) : Bool := r.getLsbD l.index

/-- `r` with `r[l] <- b` (R11). -/
def setLineBit (r : BitVec 2) (l : Line) (b : Bool) : BitVec 2 :=
  if b then r ||| lineMask l else r &&& ~~~lineMask l

/-- `LineRead(l)`, a read without side effect (R12, R53). -/
def State.lineRead (s : State) (l : Line) : Bool := lineBit s.lvl l

/-- `TRANSIENT(p, i)`: the LED bits of `p`, and of the select bits only bit `4+i` (R73). -/
def transient (p : BitVec 8) (i : BitVec 2) : BitVec 8 := (p &&& 0x0F#8) ||| (0x10#8 <<< i.toNat)

/-- `RESTORED(p)`: the select bits cleared (R73). -/
def restored (p : BitVec 8) : BitVec 8 := p &&& 0x0F#8

/-- The 2-bit increment of the scan position, used only below 3 (R10, R118). -/
def nextPosition (i : BitVec 2) : BitVec 2 := i + 1#2

/-- The last scan position (R118). -/
def lastPosition : BitVec 2 := 3#2

end Sys2Proof.Machine
end

