-- ==== Sys2Proof/Machine/Flags.lean ====
section
/-! DEFINITION. The one condition flag `ANY` (R25), and the conditions that the operations decide on. -/

namespace Sys2Proof.Machine

/-- `ANY` after a sample: set by an asserted one, never cleared by one (R25, R118). -/
def anyAfterSample (any sample : Bool) : Bool := any || sample

/-- `ANY` after DISPATCH routes to the scanner (R25, R101). -/
def anyAtScanStart : Bool := false

/-- A source that is pending and enabled exists (R100, R181). -/
def someEnabledPending (s : State) : Bool :=
  (lineBit s.ie .buttonArray && lineBit s.pend .buttonArray) || (lineBit s.ie .encoderA && lineBit s.pend .encoderA)

/-- The enabling condition of IDLE: globally enabled, and an enabled source pending (R100). -/
def acceptEnabled (s : State) : Bool := s.gie && someEnabledPending s

/-- `EDGE[l] = RISING` (R31, R77). -/
def edgeIsRising (s : State) (l : Line) : Bool := !lineBit s.edge l

/-- The bound of the wait is reached: a finite `T_RELEASE = n` with `WAITCNT = n` (R132). Never with none (R130). -/
def waitExpired (s : State) : Bool :=
  match s.params.tRelease with
  | none => false
  | some n => s.waitcnt == n

/-- `WAITCNT` where it exists, that is with a finite `T_RELEASE`: otherwise unchanged (R26). -/
def waitcntIfPresent (s : State) (value : Nat) : Nat :=
  match s.params.tRelease with
  | none => s.waitcnt
  | some _ => value

end Sys2Proof.Machine
end

