-- ==== Sys2Proof/Machine/Ops.lean ====
section
/-! DEFINITION. The shared operations: the successor write, the port primitives (R12, R52, R55, R56), the clears of
the pending register, taking an interrupt and returning from one (R100, R106, R185, R186), RESET (R143), and the
choice of what the next step runs. -/

namespace Sys2Proof.Machine

/-- `SEQ <- code` (R13). -/
def State.goto (s : State) (code : BitVec 4) : State := { s with seq := code }

/-- `TRACE += e` (R12). -/
def State.emit (s : State) (e : Event) : State := { s with trace := s.trace ++ [e] }

/-- `SrWrite(v)`: the visible state of the shift register is replaced whole, and the write recorded (R12, R52). -/
def State.srWrite (s : State) (v : BitVec 8) : State := { s with srvis := v }.emit (.srWrite v)

/-- `OUT <- v; SrWrite(OUT)`, the one way `OUT` is ever written (R21). -/
def State.driveOut (s : State) (v : BitVec 8) : State := { s with out := v }.srWrite v

/-- `ButtonReport(i)` (R55). -/
def State.buttonReport (s : State) (i : BitVec 2) : State := s.emit (.buttonReport i)

/-- `RotInvoke()` (R56). -/
def State.rotInvoke (s : State) : State := s.emit .rotInvoke

/-- `PEND[l] <- 0; TRACE += PendClear(l)` (R101). -/
def State.clearPend (s : State) (l : Line) : State :=
  { s with pend := setLineBit s.pend l false }.emit (.pendClear l)

/-- Both flags cleared, and `TRACE += PendClearAll` (R92, R104). -/
def State.clearAllPend (s : State) : State := { s with pend := 0b00#2 }.emit .pendClearAll

/-- Taking an interrupt: the only trap entry (R185). It closes the global enable, records `Enter` and goes to the one
fixed entry state; it saves nothing, clears no flag and records no cause (R100). -/
def State.takeInterrupt (s : State) : State := ({ s with gie := false }.emit .enter).goto Code.dispatch

/-- Returning from an interrupt: the global enable opens again and control goes back to IDLE; nothing is restored,
because nothing was saved (R106, R186). -/
def State.returnFromInterrupt (s : State) : State := ({ s with gie := true }.emit .ret).goto Code.idle

/-- `WAITCNT` after RESET: any value of its range 0 to `n` where it exists (R26, R143). -/
def resetWaitcnt (s : State) : Nat :=
  match s.params.tRelease with
  | none => s.waitcnt
  | some n => Config.resetWaitcnt s.draws % (n + 1)

/-- RESET: `SEQ`, `GIE` and `TRACE` get their reset values, `LVL` is not written, and every other register of the
block is drawn freely (R143). -/
def State.takeReset (s : State) : State :=
  { s with
    seq := Code.bootLoad
    gie := false
    trace := []
    out := Config.resetOut s.draws
    idx := Config.resetIdx s.draws
    any := Config.resetAny s.draws
    waitcnt := resetWaitcnt s
    pend := Config.resetPend s.draws
    ie := Config.resetIe s.draws
    edge := Config.resetEdge s.draws
    srvis := Config.resetSrvis s.draws
    draws := s.draws + 1 }

/-- A change of level of line `l` (R140 to R142). With rising sense a RISE sets the line's flag and a FALL leaves it;
with any other sense the flag is left at a free value. The event writes nothing else (R144). -/
def State.levelChange (s : State) (l : Line) (level : Bool) : State :=
  if edgeIsRising s l then
    { s with
      lvl := setLineBit s.lvl l level
      pend := if level then setLineBit s.pend l true else s.pend }
  else
    { s with
      lvl := setLineBit s.lvl l level
      pend := setLineBit s.pend l (Config.edgePend s.draws)
      draws := s.draws + 1 }

/-- The agent that takes the next step: the head of the agenda, and the sequencer when it is empty (assumption 3). -/
def State.turn (s : State) : Turn :=
  match s.agenda with
  | [] => .sequencer
  | t :: _ => t

/-- The turn is used up. -/
def State.advance (s : State) : State := { s with agenda := s.agenda.tail }

/-- The word that the next step decodes: the content of `SEQ` on the sequencer's turn (R79), the event's word on the
environment's; none on a turn of RESET, which has no encoding (R70). -/
def State.fetch (s : State) : Option CodeWord :=
  match s.turn with
  | .sequencer => some (.seq4 s.seq)
  | .environment word => some (.evt2 word)
  | .reset => none

/-- `s` with a word placed where the next step fetches it. -/
def State.place (s : State) : CodeWord → State
  | .seq4 code => { s with seq := code, agenda := .sequencer :: s.agenda }
  | .evt2 word => { s with agenda := .environment word :: s.agenda }

end Sys2Proof.Machine
end

