-- ==== Sys2Proof/Machine/Boot.lean ====
section
/-! DEFINITION. The boot operations (spec/40_boot_ops.md). Every one is always enabled and none can fault. -/

namespace Sys2Proof.Machine

/-- BOOT_LOAD (R90): the default pattern is loaded and sent. -/
def execBootLoad (s : State) : Host.Outcome State Fault Refusal :=
  .next ((s.driveOut s.params.defaultPattern).goto Code.cfgEdge)

/-- CFG_EDGE (R91): both lines on RISING. DESIGN CHOICE (assumption 13): the flags stay; R91 does not define what the
change of sense does to `PEND`. -/
def execCfgEdge (s : State) : Host.Outcome State Fault Refusal :=
  .next ({ s with edge := 0b00#2 }.goto Code.cfgClr)

/-- CFG_CLR (R92): stale flags cleared. -/
def execCfgClr (s : State) : Host.Outcome State Fault Refusal :=
  .next (s.clearAllPend.goto Code.cfgEn)

/-- CFG_EN (R93): both lines and the global enable on. -/
def execCfgEn (s : State) : Host.Outcome State Fault Refusal :=
  .next ({ s with ie := 0b11#2, gie := true }.goto Code.idle)

end Sys2Proof.Machine
end

