-- ==== Sys2Proof/Machine/Debounce.lean ====
section
/-! DEFINITION. The wait for release (spec/43_debounce_ops.md): one poll a step, the release being one de-asserted
observation (R133). It is always enabled and cannot fault. -/

namespace Sys2Proof.Machine

/-- AWAIT_RELEASE (R130), and with a finite `T_RELEASE` its bound on the polls (R132). -/
def execAwaitRelease (s : State) : Host.Outcome State Fault Refusal :=
  let level := s.lineRead .buttonArray
  let polled := s.emit (.poll level)
  .next
    (if !level then polled.goto Code.clrAll
    else if waitExpired s then (polled.emit .releaseTimeout).goto Code.clrAll
    else { polled with waitcnt := waitcntIfPresent s (s.waitcnt + 1) }.goto Code.awaitRelease)

end Sys2Proof.Machine
end

