-- ==== Sys2Proof/Machine/Environment.lean ====
section
/-! DEFINITION. The environment's events (spec/44_environment_events.md). An event that is not enabled does not
happen, so the state stays (assumption 4). No event can fault. -/

namespace Sys2Proof.Machine

/-- RISE `l` (R140, R142), enabled exactly when the line is low. -/
def execRise (l : Line) (s : State) : Host.Outcome State Fault Refusal :=
  .next (if s.lineRead l then s else s.levelChange l true)

/-- FALL `l` (R141, R142), enabled exactly when the line is high. -/
def execFall (l : Line) (s : State) : Host.Outcome State Fault Refusal :=
  .next (if s.lineRead l then s.levelChange l false else s)

end Sys2Proof.Machine
end

