-- ==== Sys2Proof/Machine/Interrupt.lean ====
section
/-! DEFINITION. The dispatch operations (spec/41_dispatch_ops.md). None can fault; only IDLE has an enabling
condition (R79). -/

namespace Sys2Proof.Machine

/-- IDLE (R100): the interrupt is taken when the acceptance is enabled; otherwise the sequencer has no step and
holds, so the state stays (assumption 4). -/
def execIdle (s : State) : Host.Outcome State Fault Refusal :=
  .next (if acceptEnabled s then s.takeInterrupt else s)

/-- DISPATCH (R101): the flags are inspected afresh, BUTTON_ARRAY first, and one handler at most is chosen. -/
def execDispatch (s : State) : Host.Outcome State Fault Refusal :=
  .next
    (if lineBit s.pend .buttonArray then
      { s.clearPend .buttonArray with idx := 0#2, any := anyAtScanStart }.goto Code.scanDrive
    else if lineBit s.pend .encoderA then
      (s.clearPend .encoderA).goto Code.rotCall
    else
      s.goto Code.clrAll)

/-- ROT_CALL (R103): the rotation handler is invoked, once. -/
def execRotCall (s : State) : Host.Outcome State Fault Refusal :=
  .next (s.rotInvoke.goto Code.clrAll)

/-- CLR_ALL (R104): every flag is cleared, whatever was serviced. -/
def execClrAll (s : State) : Host.Outcome State Fault Refusal :=
  .next (s.clearAllPend.goto Code.ret)

/-- RETURN (R106). -/
def execRet (s : State) : Host.Outcome State Fault Refusal :=
  .next s.returnFromInterrupt

end Sys2Proof.Machine
end

