-- ==== Sys2Proof/Machine/Scan.lean ====
section
/-! DEFINITION. The button-scan operations (spec/42_scan_ops.md). Every one is always enabled and none can fault. -/

namespace Sys2Proof.Machine

/-- SCAN_DRIVE (R116): the transient pattern of the position is loaded and sent. -/
def execScanDrive (s : State) : Host.Outcome State Fault Refusal :=
  .next ((s.driveOut (transient s.out s.idx)).goto Code.scanSample)

/-- The record of a sample: the sample itself, the flag, and a report when it is asserted (R118). -/
def State.recordSample (s : State) (level : Bool) : State :=
  let sampled := { s.emit (.sample s.idx level) with any := anyAfterSample s.any level }
  if level then sampled.buttonReport s.idx else sampled

/-- SCAN_SAMPLE (R118): the sense line is sampled, the report made before the next position is driven; after the
last position the register keeps its value and the restore follows. -/
def execScanSample (s : State) : Host.Outcome State Fault Refusal :=
  let sampled := s.recordSample (s.lineRead .buttonArray)
  .next
    (if s.idx = lastPosition then sampled.goto Code.restore
    else { sampled with idx := nextPosition s.idx }.goto Code.scanDrive)

/-- RESTORE (R120): the select bits are cleared and the pattern sent, pressed or not; the wait follows a press. -/
def execRestore (s : State) : Host.Outcome State Fault Refusal :=
  let driven := { s.driveOut (restored s.out) with waitcnt := waitcntIfPresent s 0 }
  .next (driven.goto (if s.any then Code.awaitRelease else Code.clrAll))

end Sys2Proof.Machine
end

