-- ==== Sys2Proof/Machine/Dispatch.lean ====
section
/-! DEFINITION. What each instruction does: one arm per constructor, one meaning per arm. -/

namespace Sys2Proof.Machine

def exec (i : Instr) (s : State) : Host.Outcome State Fault Refusal :=
  match i with
  | .bootLoad => Sys2Proof.Machine.execBootLoad s
  | .cfgEdge => Sys2Proof.Machine.execCfgEdge s
  | .cfgClr => Sys2Proof.Machine.execCfgClr s
  | .cfgEn => Sys2Proof.Machine.execCfgEn s
  | .idle => Sys2Proof.Machine.execIdle s
  | .dispatch => Sys2Proof.Machine.execDispatch s
  | .scanDrive => Sys2Proof.Machine.execScanDrive s
  | .scanSample => Sys2Proof.Machine.execScanSample s
  | .restore => Sys2Proof.Machine.execRestore s
  | .awaitRelease => Sys2Proof.Machine.execAwaitRelease s
  | .rotCall => Sys2Proof.Machine.execRotCall s
  | .clrAll => Sys2Proof.Machine.execClrAll s
  | .ret => Sys2Proof.Machine.execRet s
  | .rise l => Sys2Proof.Machine.execRise l s
  | .fall l => Sys2Proof.Machine.execFall l s

end Sys2Proof.Machine
end

