-- ==== Sys2Proof/Machine/Step.lean ====
section
/-! DEFINITION. One step: the agent whose turn it is moves (R9). The sequencer executes the operation that `SEQ`
selects, a reserved code being a fault (R79, R80, R196); the environment takes the event its word names; RESET is
enabled in every state, a faulted one too (R143, R196). -/

namespace Sys2Proof.Machine

/-- One step of the machine. -/
def step (s : State) : Host.Outcome State Fault Refusal :=
  match s.fetch with
  | none => .next s.advance.takeReset
  | some word =>
    match decode word with
    | .ok i => exec i s.advance
    | .error (.reservedSeq code) => .fault (.reservedSeq code)

/-- `s` with a word of the opcode table stored where the next step fetches: a `SEQ4` code in `SEQ`, the turn the
sequencer's; an `EVT2` word as the environment's turn. A number that is no word of the table changes nothing. -/
def State.withFetchWord (s : State) (nbits w : Nat) : State :=
  match tableWord nbits w with
  | none => s
  | some word => s.place word

end Sys2Proof.Machine
end

