-- ==== Sys2Proof/Machine/Collaborators.lean ====
section
/-! DEFINITION. The contracts of the collaborators (spec/45_collaborator_contracts.md), which are outside the block (R3,
R150). Nothing of the block reads this file: the state here is separate, and what the collaborators do is a function
of the events that the block's `TRACE` records (R150). -/

namespace Sys2Proof.Machine

/-- RotationDirection (R76, R153). -/
inductive RotationDirection where
  | clockwise
  | counterClockwise
  | none
deriving DecidableEq, Repr

/-- One call of `DisplayPort.writeText(text, row, column)` (R152). -/
structure DisplayWrite where
  text : List Char
  row : Nat
  column : Nat
deriving DecidableEq, Repr

/-- The state of the collaborators. The Counter is a single-precision number of volts (R156), held as a count of
2^-27 volts: the step 0.1 is 0x3DCCCCCD = 13421773 * 2^-27, so every value the handler reaches is such a count. The
display is the list of the writes it took, oldest first: text outside a later write stays visible (R152). -/
structure Surroundings where
  counter : Int
  queries : Nat
  display : List DisplayWrite
deriving DecidableEq, Repr

/-- The only stop of a collaborator: a readout longer than its field, which the spec leaves undefined (R160, R163, U13). -/
inductive OverlongReadout where
  | overlong (text : List Char)
deriving DecidableEq, Repr

/-- At startup the Counter is zero (R158, R215). DESIGN CHOICE (assumption 14): nothing has been written to the display;
whether an initial reading is shown before the first rotation is not stated (R167). -/
def Surroundings.start : Surroundings := ⟨0, 0, []⟩

/-- The labels of the button-identity callback (R74, R154). -/
def buttonLabel : Nat → List Char
  | 0 => "POWER".toList
  | 1 => "MENU1".toList
  | 2 => "SELECT".toList
  | 3 => "MENU2".toList
  | _ => Config.unrecognizedLabel

/-- `DisplayPort.writeText` (R152). -/
def Surroundings.writeText (c : Surroundings) (text : List Char) (row column : Nat) : Surroundings :=
  { c with display := c.display ++ [⟨text, row, column⟩] }

/-- The button-identity callback: the label on a fixed row below the primary readout (R154, R155). DESIGN CHOICE
(assumption 15): the bare label is written; whether a shorter one is padded to erase a longer earlier one is not given
(R155, N20). -/
def buttonCallback (i : Nat) (c : Surroundings) : Surroundings :=
  c.writeText (buttonLabel i) (Config.primaryRow + 1 + Config.labelRowGap) Config.labelColumn

/-- A count rounded to 24 significant bits, ties to even: binary32 rounding (G1). -/
def roundToSingle (n : Int) : Int :=
  let m := n.natAbs
  let k := Nat.log2 m + 1 - 24
  let unit := 2 ^ k
  let q := m / unit
  let r := m % unit
  let up := unit < 2 * r || (2 * r == unit && q % 2 == 1)
  let rounded := (if up then q + 1 else q) * unit
  if n < 0 then -(rounded : Int) else (rounded : Int)

/-- The rotation step, the binary32 nearest to 0.1, in units of 2^-27 (R8, G1). -/
def rotationStep : Int := 13421773

/-- The Counter's value to the nearest tenth, in tenths, without its sign; a tie goes either way (R160, R162). -/
def nearestTenth (n : Int) : Nat :=
  let m := n.natAbs * 10
  let unit := 2 ^ 27
  let q := m / unit
  let r := m % unit
  if unit < 2 * r || (2 * r == unit && Config.tieGoesAway n) then q + 1 else q

/-- The text of the readout: exactly one fractional digit, then the unit suffix (R8, R160). -/
def readoutText (n : Int) : List Char :=
  let t := nearestTenth n
  let sign := decide (n < 0) && (t != 0 || Config.negativeZeroShown)
  (if sign then ['-'] else []) ++ Nat.toDigits 10 (t / 10) ++ ['.'] ++ Nat.toDigits 10 (t % 10) ++ ['V']

/-- The width of the render field (R8, R160). -/
def fieldWidth : Nat := 16

/-- VoltageRenderer: the readout right-aligned in its field on the primary row (R160). -/
def voltageRenderer (c : Surroundings) : Except OverlongReadout Surroundings :=
  let text := readoutText c.counter
  if fieldWidth < text.length then .error (.overlong text)
  else if Config.padsReadout then
    .ok (c.writeText (List.replicate (fieldWidth - text.length) ' ' ++ text) Config.primaryRow 0)
  else .ok (c.writeText text Config.primaryRow (fieldWidth - text.length))

/-- RotationHandler with the one queried direction (R157, R159). -/
def rotationHandler (d : RotationDirection) (c : Surroundings) : Except OverlongReadout Surroundings :=
  match d with
  | .clockwise => voltageRenderer { c with counter := roundToSingle (c.counter + rotationStep) }
  | .counterClockwise =>
    if 0 < c.counter then voltageRenderer { c with counter := roundToSingle (c.counter - rotationStep) } else .ok c
  | .none => .ok c

/-- What one event of the block makes the collaborators do; `answers` is what the EncoderPort answers at each query
(R153, R154, R159). -/
def Surroundings.absorb (answers : Nat → RotationDirection) (c : Surroundings) : Event → Except OverlongReadout Surroundings
  | .buttonReport i => .ok (buttonCallback i.toNat c)
  | .rotInvoke => rotationHandler (answers c.queries) { c with queries := c.queries + 1 }
  | .srWrite _ | .sample _ _ | .poll _ | .enter | .pendClear _ | .pendClearAll | .ret | .releaseTimeout => .ok c

/-- What a whole event history makes the collaborators do. -/
def Surroundings.absorbAll (answers : Nat → RotationDirection) : Surroundings → List Event → Except OverlongReadout Surroundings
  | c, [] => .ok c
  | c, e :: es =>
    match c.absorb answers e with
    | .ok d => absorbAll answers d es
    | .error r => .error r

end Sys2Proof.Machine
end

