-- ==== Sys2Proof/Safety.lean ====
section
/-! DEFINITION. The terms that claims are stated in: execution contexts, enabled turns and quiescence, runs, the
invariant of the registers, and the language of the event history. -/

namespace Sys2Proof.Machine

/-! ## Contexts, enabled turns, quiescence -/

/-- The three execution contexts (R190). -/
inductive Context where
  | boot
  | main
  | interrupt
deriving DecidableEq, Repr

/-- The context that a `SEQ` code puts the block in; none for a reserved code (R190). -/
def contextOf (code : BitVec 4) : Option Context :=
  if code.toNat ≤ 0x3 then some .boot
  else if code.toNat = 0x4 then some .main
  else if code.toNat ≤ 0xC then some .interrupt
  else none

/-- Whether an agent's step exists (R13): only IDLE among the sequencer's operations has a condition (R79, R100), a
RISE needs the line low and a FALL needs it high (R140, R141), RESET is always enabled (R143). -/
def turnEnabled (s : State) : Turn → Bool
  | .sequencer => if s.seq = Code.idle then acceptEnabled s else true
  | .environment word =>
    match decodeEvt2 word with
    | .rise l => !s.lineRead l
    | .fall l => s.lineRead l
    | _ => true
  | .reset => true

/-- The block is quiescent: only the environment or RESET can move (R227). -/
def quiescent (s : State) : Bool := s.seq == 0x4#4 && s.gie && (s.pend &&& s.ie) == 0b00#2

/-! ## Outcomes and runs -/

/-- An outcome with its next state changed by `f`. -/
def mapNext (f : State → State) : Host.Outcome State Fault Refusal → Host.Outcome State Fault Refusal
  | .next s => .next (f s)
  | .fault r => .fault r
  | .refused r => .refused r

/-- A step that neither faults nor is refused: what is safe. -/
def stepsSafely (s : State) : Prop := ∃ t, step s = .next t

/-- The run that takes exactly the turns listed, in their order. -/
def runTurns (ts : List Turn) (s : State) : Host.Outcome State Fault Refusal :=
  Sys2Proof.core.run ts.length { s with agenda := ts }

/-- `k` turns of the sequencer with a silent environment. -/
def runSequencer (k : Nat) (s : State) : Host.Outcome State Fault Refusal :=
  runTurns (List.replicate k .sequencer) s

/-- A list of instructions executed one after another. -/
def execAll : List Instr → State → Host.Outcome State Fault Refusal
  | [], s => .next s
  | i :: is, s =>
    match exec i s with
    | .next t => execAll is t
    | .fault r => .fault r
    | .refused r => .refused r

/-- An interleaving of `k` sequencer turns with any number of environment turns, and no RESET (R9, R144). -/
def interleaves (k : Nat) (ts : List Turn) : Prop := ts.count .sequencer = k ∧ Turn.reset ∉ ts

/-! ## The invariant of the registers -/

/-- The select bits in each sequencer state after BOOT_LOAD (R23). -/
def expectedSelect (code : BitVec 4) (idx : BitVec 2) : BitVec 4 :=
  if code = 0x6#4 then (if idx = 0#2 then 0#4 else 1#4 <<< (idx.toNat - 1))
  else if code = 0x7#4 then 1#4 <<< idx.toNat
  else if code = 0x8#4 then 0b1000#4
  else 0#4

/-- What holds of the registers in every state that a run from reset comes to. -/
structure RegistersSound (s : State) : Prop where
  /-- No reserved code (R80). -/
  seqDefined : s.seq.toNat ≤ 0xC
  /-- `OUT` in every state after BOOT_LOAD (R23). -/
  outPattern : s.seq ≠ 0x0#4 → s.out = expectedSelect s.seq s.idx ++ s.params.leds
  /-- The shift register shows `OUT` (R21). -/
  shown : s.seq ≠ 0x0#4 → s.srvis = s.out
  /-- Both lines on RISING after CFG_EDGE (R31). -/
  edgeRising : 0x2 ≤ s.seq.toNat → s.edge = 0b00#2
  /-- Both lines enabled after CFG_EN (R30). -/
  linesEnabled : 0x4 ≤ s.seq.toNat → s.ie = 0b11#2
  /-- The global enable is 1 exactly in IDLE (R32, R190). -/
  globalEnable : s.gie = true ↔ s.seq = 0x4#4
  /-- Acceptance leaves a flag for DISPATCH to find (R101). -/
  dispatchPending : s.seq = 0x5#4 → s.pend ≠ 0b00#2
  /-- The restore follows the last position (R23, R118). -/
  restoreAfterLast : s.seq = 0x8#4 → s.idx = 3#2
  /-- The wait follows a press (R120). -/
  waitAfterPress : s.seq = 0x9#4 → s.any = true
  /-- `WAITCNT`, where it exists, ranges over 0 to `n` (R26). -/
  waitBounded : ∀ n, s.params.tRelease = some n → s.seq = 0x9#4 → s.waitcnt ≤ n

/-! ## The language of the event history -/

/-- How far an event history has come: what its next event may be. -/
inductive TracePhase where
  /-- Nothing yet: the first byte is due (R90). -/
  | start
  /-- The default pattern was sent: the boot clear is due (R92). -/
  | loaded
  /-- Outside an invocation: only an `Enter` may follow (R100). -/
  | main
  /-- After `Enter`: the one `PendClear` is due (R101). -/
  | entered
  /-- The transient byte of position `i` is due (R116). -/
  | scanning (i : BitVec 2) (any : Bool)
  /-- The sample of position `i` is due (R118). -/
  | driven (i : BitVec 2) (any : Bool)
  /-- The report of position `i` is due (R118). -/
  | reporting (i : BitVec 2)
  /-- The fifth byte of the scan is due (R120). -/
  | restoring (any : Bool)
  /-- A poll is due, `k` asserted ones have been made (R130). -/
  | waiting (k : Nat)
  /-- The last allowed poll read asserted: the timeout is due (R132). -/
  | expired
  /-- The call of the rotation handler is due (R103). -/
  | rotating
  /-- The clear of the whole register is due (R104). -/
  | closing
  /-- The `Return` is due (R106). -/
  | returning
deriving DecidableEq, Repr

/-- What follows the sample of position `i` and its report (R118). -/
def afterPosition (i : BitVec 2) (any : Bool) : TracePhase :=
  if i = 3#2 then .restoring any else .scanning (i + 1#2) any

/-- What follows an asserted poll when `k` asserted ones came before it (R130, R132). -/
def afterAssertedPoll (p : Params) (k : Nat) : TracePhase :=
  if p.tRelease = some k then .expired else .waiting (k + 1)

/-- What an event brings a history to, none where it may not come: the shape R121 gives the trace of a scan, and the
orders of R62, R92, R102, R104 and R187 around it. -/
def traceNext (p : Params) : TracePhase → Event → Option TracePhase
  | .start, .srWrite v => if v = 0#4 ++ p.leds then some .loaded else none
  | .loaded, .pendClearAll => some .main
  | .main, .enter => some .entered
  | .entered, .pendClear .buttonArray => some (.scanning 0#2 false)
  | .entered, .pendClear .encoderA => some .rotating
  | .scanning i any, .srWrite v => if v = (1#4 <<< i.toNat) ++ p.leds then some (.driven i any) else none
  | .driven i any, .sample j level =>
    if j = i then some (if level then .reporting i else afterPosition i any) else none
  | .reporting i, .buttonReport j => if j = i then some (afterPosition i true) else none
  | .restoring any, .srWrite v =>
    if v = 0#4 ++ p.leds then some (if any then .waiting 0 else .closing) else none
  | .waiting k, .poll level => some (if level then afterAssertedPoll p k else .closing)
  | .expired, .releaseTimeout => some .closing
  | .rotating, .rotInvoke => some .closing
  | .closing, .pendClearAll => some .returning
  | .returning, .ret => some .main
  | _, _ => none

/-- What a list of events brings a history to. -/
def traceRun (p : Params) : TracePhase → List Event → Option TracePhase
  | ph, [] => some ph
  | ph, e :: es =>
    match traceNext p ph e with
    | none => none
    | some ph' => traceRun p ph' es

/-- The phase that the registers call for. The number of asserted polls stands in `WAITCNT` where that exists. -/
def phaseFits (s : State) (ph : TracePhase) : Prop :=
  match s.seq.toNat with
  | 0x0 => ph = .start
  | 0x1 | 0x2 => ph = .loaded
  | 0x3 | 0x4 => ph = .main
  | 0x5 => ph = .entered
  | 0x6 => ph = .scanning s.idx s.any
  | 0x7 => ph = .driven s.idx s.any
  | 0x8 => ph = .restoring s.any
  | 0x9 => ∃ k, ph = .waiting k ∧ (s.params.tRelease ≠ none → k = s.waitcnt)
  | 0xA => ph = .rotating
  | 0xB => ph = .closing
  | 0xC => ph = .returning
  | _ => False

/-- The event history is one the spec allows, and has come as far as the registers say. -/
def TraceSound (s : State) : Prop := ∃ ph, traceRun s.params .start s.trace = some ph ∧ phaseFits s ph

/-- `Enter` and `Return` alternate, beginning inside an invocation or outside one (R187). -/
def alternates : Bool → List Event → Prop
  | _, [] => True
  | inside, .enter :: es => inside = false ∧ alternates true es
  | inside, .ret :: es => inside = true ∧ alternates false es
  | inside, _ :: es => alternates inside es

/-- The bytes that a list of events sends to the shift register, in order. -/
def bytesWritten (es : List Event) : List (BitVec 8) :=
  es.filterMap fun e => match e with | .srWrite v => some v | _ => none

/-- Whether an event is the clear of one line's flag. -/
def isPendClear : Event → Bool
  | .pendClear _ => true
  | _ => false

/-- What the trace of one scan gains for the four levels sampled (R121). -/
def scanTrace (leds : BitVec 4) (s0 s1 s2 s3 : Bool) : List Event :=
  [.srWrite (0x1#4 ++ leds), .sample 0#2 s0] ++ (if s0 then [.buttonReport 0#2] else []) ++
  [.srWrite (0x2#4 ++ leds), .sample 1#2 s1] ++ (if s1 then [.buttonReport 1#2] else []) ++
  [.srWrite (0x4#4 ++ leds), .sample 2#2 s2] ++ (if s2 then [.buttonReport 2#2] else []) ++
  [.srWrite (0x8#4 ++ leds), .sample 3#2 s3] ++ (if s3 then [.buttonReport 3#2] else []) ++
  [.srWrite (0x0#4 ++ leds)]

end Sys2Proof.Machine
end

