-- ==== Sys2Proof/Certificates/Slice0/Obligations.lean ====
section
/-! DEFINITION. What is claimed of the model. Each docstring names the rule of spec/ that the statement formalises. The
next state of a result statement is written out whole: every field that it does not name is unchanged, which is the
instruction's frame. The block has no memory (R51), so there is none to frame. A statement over all states holds for
every `DEFAULT_PATTERN` and, where it does not say otherwise, for every `T_RELEASE`. -/

open Sys2Proof Sys2Proof.Machine

/-! ## Reset, decoding, the step -/

/-- R27, R32, R35, R211: right after reset the entry point is BOOT_LOAD, the context is boot, the global enable is
closed and the history is empty; `T_RELEASE` is none (R6). -/
def Obligations.ResetEntersBootMasked : Prop :=
  State.reset.seq = 0x0#4 ∧ contextOf State.reset.seq = some .boot ∧ State.reset.gie = false ∧
  State.reset.trace = [] ∧ State.reset.params.tRelease = none

/-- R71: the thirteen codes, each with the operation of its row. -/
def Obligations.ThirteenCodesDecode : Prop :=
  decode (.seq4 0x0#4) = .ok .bootLoad ∧ decode (.seq4 0x1#4) = .ok .cfgEdge ∧
  decode (.seq4 0x2#4) = .ok .cfgClr ∧ decode (.seq4 0x3#4) = .ok .cfgEn ∧
  decode (.seq4 0x4#4) = .ok .idle ∧ decode (.seq4 0x5#4) = .ok .dispatch ∧
  decode (.seq4 0x6#4) = .ok .scanDrive ∧ decode (.seq4 0x7#4) = .ok .scanSample ∧
  decode (.seq4 0x8#4) = .ok .restore ∧ decode (.seq4 0x9#4) = .ok .awaitRelease ∧
  decode (.seq4 0xA#4) = .ok .rotCall ∧ decode (.seq4 0xB#4) = .ok .clrAll ∧
  decode (.seq4 0xC#4) = .ok .ret

/-- R72: the four event words. -/
def Obligations.FourEventWordsDecode : Prop :=
  decode (.evt2 0b00#2) = .ok (.fall .buttonArray) ∧ decode (.evt2 0b01#2) = .ok (.fall .encoderA) ∧
  decode (.evt2 0b10#2) = .ok (.rise .buttonArray) ∧ decode (.evt2 0b11#2) = .ok (.rise .encoderA)

/-- Decode and encode agree, both ways, for every instruction and every word (R70 to R72, R79, R80): a word decodes
exactly when it is well formed, and the table's numbering of the words finds every instruction. -/
def Obligations.DecodeEncodeRoundTrip : Prop :=
  (∀ i : Instr, decode (encode i) = .ok i ∧ decodeTableWord i.row.width (encode i).toNat = some i) ∧
  (∀ (w : CodeWord) (i : Instr), decode w = .ok i → encode i = w) ∧
  (∀ w : CodeWord, w.wf = true ↔ ∃ i, decode w = .ok i)

/-- A step runs the decoded instruction: on the sequencer's turn the one that `SEQ` selects (R79), on the environment's
the one its word names (R72), at the state whose turn is used up and which is otherwise the same. The turns, and the
sequencer having every turn that the agenda does not name, are the model's choice (assumption 3). -/
def Obligations.StepRunsDecodedInstruction : Prop :=
  (∀ (s : State) (i : Instr), s.agenda = [] → decode (.seq4 s.seq) = .ok i → step s = exec i s) ∧
  (∀ (s : State) (i : Instr) (rest : List Turn), s.agenda = .sequencer :: rest → decode (.seq4 s.seq) = .ok i →
    step s = exec i { s with agenda := rest }) ∧
  (∀ (s : State) (w : BitVec 2) (i : Instr) (rest : List Turn), s.agenda = .environment w :: rest →
    decode (.evt2 w) = .ok i → step s = exec i { s with agenda := rest })

/-- Placing an instruction's word makes the next step run that instruction (assumption 3): a `SEQ4` code becomes the
content of `SEQ`, an `EVT2` word the environment's turn, and nothing else changes. -/
def Obligations.PlacedWordRunsNext : Prop :=
  ∀ (s : State) (i : Instr), step (s.withFetchWord i.row.width (encode i).toNat) =
    exec i (if i.isSequencer then { s with seq := BitVec.ofNat 4 (encode i).toNat } else s)

/-- R80, R196, R79: the reserved codes select no operation: a sequencer step there is the fault that carries the code, there
is no other fault and no refusal, and no operation and no RESET writes a reserved code. That every other step answers, and
that an IDLE whose step is not enabled (R13) leaves `SEQ`, is the model's choice (assumption 4). -/
def Obligations.ReservedCodesFaultAndAreNeverWritten : Prop :=
  (∀ (s : State) (c : BitVec 4), step s = .fault (.reservedSeq c) ↔ s.turn = .sequencer ∧ 0xD ≤ s.seq.toNat ∧ c = s.seq) ∧
  (∀ (s : State) (r : Refusal), step s ≠ .refused r) ∧
  (∀ (s t : State) (i : Instr), i.isSequencer = true → i ≠ .idle → exec i s = .next t → t.seq.toNat ≤ 0xC) ∧
  (∀ s t : State, exec .idle s = .next t → t.seq = 0x5#4 ∨ t.seq = s.seq) ∧
  (∀ s t : State, s.turn = .reset → step s = .next t → t.seq = 0x0#4) ∧
  (∀ s t : State, s.seq.toNat ≤ 0xC → step s = .next t → t.seq.toNat ≤ 0xC)

/-- R194: no operation and no event raises an exception. That each answers a next state even where its step is not enabled
(a held IDLE, a RISE of a high line, a FALL of a low one), which R13 says does not happen, is the model's choice
(assumption 4). -/
def Obligations.EveryInstructionAnswersNext : Prop :=
  ∀ (i : Instr) (s : State), ∃ t, exec i s = .next t

/-- A turn whose step is not enabled leaves the state as it is but for the turn itself. R13 says that such a step
does not happen; that the model still answers a next state for it is its own choice (assumption 4). -/
def Obligations.DisabledTurnHolds : Prop :=
  ∀ s : State, turnEnabled s s.turn = false → step s = .next { s with agenda := s.agenda.tail }

/-! ## Boot -/

/-- R90. -/
def Obligations.BootLoadLoadsAndSendsPattern : Prop :=
  decode (.seq4 0x0#4) = .ok .bootLoad ∧
  ∀ s : State, exec .bootLoad s = .next { s with
    out := s.params.defaultPattern
    srvis := s.params.defaultPattern
    trace := s.trace ++ [.srWrite s.params.defaultPattern]
    seq := 0x1#4 }

/-- R91. That `PEND` stays over the change of sense, which R91 does not define, is the model's choice (assumption 13). -/
def Obligations.CfgEdgeSelectsRising : Prop :=
  decode (.seq4 0x1#4) = .ok .cfgEdge ∧
  ∀ s : State, exec .cfgEdge s = .next { s with edge := 0b00#2, seq := 0x2#4 }

/-- R92. -/
def Obligations.CfgClrClearsStaleFlags : Prop :=
  decode (.seq4 0x2#4) = .ok .cfgClr ∧
  ∀ s : State, exec .cfgClr s =
    .next { s with pend := 0b00#2, trace := s.trace ++ [.pendClearAll], seq := 0x3#4 }

/-- R93. -/
def Obligations.CfgEnEnablesInterrupts : Prop :=
  decode (.seq4 0x3#4) = .ok .cfgEn ∧
  ∀ s : State, exec .cfgEn s = .next { s with ie := 0b11#2, gie := true, seq := 0x4#4 }

/-! ## Dispatch -/

/-- R100: when `GIE = 1` and some line is enabled and pending, IDLE takes the interrupt, and only then is its step
enabled. Nothing is saved and no flag is cleared. -/
def Obligations.IdleTakesInterrupt : Prop :=
  decode (.seq4 0x4#4) = .ok .idle ∧
  (∀ s : State, s.seq = 0x4#4 →
    (turnEnabled s .sequencer = true ↔
      s.gie = true ∧ ∃ l : Line, s.ie.getLsbD l.index = true ∧ s.pend.getLsbD l.index = true)) ∧
  ∀ (s : State) (l : Line), s.gie = true → s.ie.getLsbD l.index = true → s.pend.getLsbD l.index = true →
    exec .idle s = .next { s with gie := false, trace := s.trace ++ [.enter], seq := 0x5#4 }

/-- R101: BUTTON_ARRAY first, ENCODER_A only without it, and with no flag set straight to the clear-all. -/
def Obligations.DispatchServicesOneLine : Prop :=
  decode (.seq4 0x5#4) = .ok .dispatch ∧
  (∀ s : State, s.pend.getLsbD 0 = true → exec .dispatch s = .next { s with
    pend := s.pend &&& 0b10#2
    trace := s.trace ++ [.pendClear .buttonArray]
    idx := 0#2
    any := false
    seq := 0x6#4 }) ∧
  (∀ s : State, s.pend.getLsbD 0 = false → s.pend.getLsbD 1 = true → exec .dispatch s = .next { s with
    pend := s.pend &&& 0b01#2
    trace := s.trace ++ [.pendClear .encoderA]
    seq := 0xA#4 }) ∧
  (∀ s : State, s.pend.getLsbD 0 = false → s.pend.getLsbD 1 = false →
    exec .dispatch s = .next { s with seq := 0xB#4 })

/-- R103. -/
def Obligations.RotCallInvokesHandlerOnce : Prop :=
  decode (.seq4 0xA#4) = .ok .rotCall ∧
  ∀ s : State, exec .rotCall s = .next { s with trace := s.trace ++ [.rotInvoke], seq := 0xB#4 }

/-- R104: the clear does not depend on the line serviced, on `ANY` or on the levels. -/
def Obligations.ClrAllClearsEveryFlag : Prop :=
  decode (.seq4 0xB#4) = .ok .clrAll ∧
  ∀ s : State, exec .clrAll s =
    .next { s with pend := 0b00#2, trace := s.trace ++ [.pendClearAll], seq := 0xC#4 }

/-- R106. -/
def Obligations.ReturnReopensInterrupts : Prop :=
  decode (.seq4 0xC#4) = .ok .ret ∧
  ∀ s : State, exec .ret s = .next { s with gie := true, trace := s.trace ++ [.ret], seq := 0x4#4 }

/-! ## Scan and wait -/

/-- R116: one select bit over the preserved LED bits, the transient pattern of R73, loaded and sent. -/
def Obligations.ScanDriveAssertsOneSelectBit : Prop :=
  decode (.seq4 0x6#4) = .ok .scanDrive ∧
  (∀ s : State, exec .scanDrive s = .next { s with
    out := (s.out &&& 0x0F#8) ||| (0x10#8 <<< s.idx.toNat)
    srvis := (s.out &&& 0x0F#8) ||| (0x10#8 <<< s.idx.toNat)
    trace := s.trace ++ [.srWrite ((s.out &&& 0x0F#8) ||| (0x10#8 <<< s.idx.toNat))]
    seq := 0x7#4 }) ∧
  ∀ (p : BitVec 8) (i : BitVec 2) (k : Nat), k < 8 → ((p &&& 0x0F#8) ||| (0x10#8 <<< i.toNat)).getLsbD k =
    if k < 4 then p.getLsbD k else decide (k = 4 + i.toNat)

/-- R118: the level is that of the step, the report precedes the next position, and the last position keeps `IDX`. -/
def Obligations.ScanSampleRecordsAndReports : Prop :=
  decode (.seq4 0x7#4) = .ok .scanSample ∧
  ∀ s : State, exec .scanSample s = .next { s with
    any := s.any || s.lvl.getLsbD 0
    trace := s.trace ++ [.sample s.idx (s.lvl.getLsbD 0)] ++
      (if s.lvl.getLsbD 0 then [.buttonReport s.idx] else [])
    idx := if s.idx = 3#2 then s.idx else s.idx + 1#2
    seq := if s.idx = 3#2 then 0x8#4 else 0x6#4 }

/-- R120: the select bits are cleared and the pattern sent on both branches; `WAITCNT` is cleared where it exists. -/
def Obligations.RestoreClearsSelectBits : Prop :=
  decode (.seq4 0x8#4) = .ok .restore ∧
  ∀ s : State, exec .restore s = .next { s with
    out := s.out &&& 0x0F#8
    srvis := s.out &&& 0x0F#8
    trace := s.trace ++ [.srWrite (s.out &&& 0x0F#8)]
    waitcnt := if s.params.tRelease = none then s.waitcnt else 0
    seq := if s.any then 0x9#4 else 0xB#4 }

/-- R130: with `T_RELEASE = none` a step is one poll, and the first de-asserted one leaves the wait (R133). -/
def Obligations.AwaitReleasePollsUntilLow : Prop :=
  decode (.seq4 0x9#4) = .ok .awaitRelease ∧
  ∀ s : State, s.params.tRelease = none → exec .awaitRelease s = .next { s with
    trace := s.trace ++ [.poll (s.lvl.getLsbD 0)]
    seq := if s.lvl.getLsbD 0 then 0x9#4 else 0xB#4 }

/-- R132: with `T_RELEASE = n` an asserted poll counts, and at `WAITCNT = n` it ends the wait by the timeout. -/
def Obligations.AwaitReleaseBoundedVariant : Prop :=
  ∀ (s : State) (n : Nat), s.params.tRelease = some n →
    (s.lvl.getLsbD 0 = false → exec .awaitRelease s = .next { s with
      trace := s.trace ++ [.poll false], seq := 0xB#4 }) ∧
    (s.lvl.getLsbD 0 = true → s.waitcnt = n → exec .awaitRelease s = .next { s with
      trace := s.trace ++ [.poll true, .releaseTimeout], seq := 0xB#4 }) ∧
    (s.lvl.getLsbD 0 = true → s.waitcnt ≠ n → exec .awaitRelease s = .next { s with
      trace := s.trace ++ [.poll true], waitcnt := s.waitcnt + 1, seq := 0x9#4 })

/-! ## Environment and RESET -/

/-- R140: a RISE of a low line with rising sense raises the level and sets the flag, whatever the enables and `SEQ`
hold; it is enabled exactly when the line is low. -/
def Obligations.RiseSetsLevelAndFlag : Prop :=
  decode (.evt2 0b10#2) = .ok (.rise .buttonArray) ∧ decode (.evt2 0b11#2) = .ok (.rise .encoderA) ∧
  (∀ s : State, turnEnabled s (.environment 0b10#2) = !s.lvl.getLsbD 0) ∧
  (∀ s : State, turnEnabled s (.environment 0b11#2) = !s.lvl.getLsbD 1) ∧
  (∀ s : State, s.lvl.getLsbD 0 = false → s.edge.getLsbD 0 = false →
    exec (.rise .buttonArray) s = .next { s with lvl := s.lvl ||| 0b01#2, pend := s.pend ||| 0b01#2 }) ∧
  (∀ s : State, s.lvl.getLsbD 1 = false → s.edge.getLsbD 1 = false →
    exec (.rise .encoderA) s = .next { s with lvl := s.lvl ||| 0b10#2, pend := s.pend ||| 0b10#2 })

/-- R141, which the spec derives from R140 and R31: a FALL of a high line with rising sense lowers the level alone. -/
def Obligations.FallLowersLevelOnly : Prop :=
  decode (.evt2 0b00#2) = .ok (.fall .buttonArray) ∧ decode (.evt2 0b01#2) = .ok (.fall .encoderA) ∧
  (∀ s : State, turnEnabled s (.environment 0b00#2) = s.lvl.getLsbD 0) ∧
  (∀ s : State, turnEnabled s (.environment 0b01#2) = s.lvl.getLsbD 1) ∧
  (∀ s : State, s.lvl.getLsbD 0 = true → s.edge.getLsbD 0 = false →
    exec (.fall .buttonArray) s = .next { s with lvl := s.lvl &&& 0b10#2 }) ∧
  (∀ s : State, s.lvl.getLsbD 1 = true → s.edge.getLsbD 1 = false →
    exec (.fall .encoderA) s = .next { s with lvl := s.lvl &&& 0b01#2 })

/-- R142: while the sense of a line is not RISING, either event changes the level and leaves the line's flag at a free
value; that it is drawn from `Config.edgePend` and that the other line's flag stays is the model's choice
(assumption 6). -/
def Obligations.NonRisingSenseLeavesFlagFree : Prop :=
  ∀ (s : State) (l : Line), s.edge.getLsbD l.index = true →
    (s.lvl.getLsbD l.index = false → exec (.rise l) s = .next { s with
      lvl := s.lvl ||| lineMask l
      pend := if Config.edgePend s.draws then s.pend ||| lineMask l else s.pend &&& ~~~lineMask l
      draws := s.draws + 1 }) ∧
    (s.lvl.getLsbD l.index = true → exec (.fall l) s = .next { s with
      lvl := s.lvl &&& ~~~lineMask l
      pend := if Config.edgePend s.draws then s.pend ||| lineMask l else s.pend &&& ~~~lineMask l
      draws := s.draws + 1 })

/-- R143: RESET in any state, a faulted one too: `SEQ`, `GIE` and `TRACE` get their values, `LVL` is not written, and
every other register is left at a free value. How the free values are drawn is the model's choice (assumption 5). -/
def Obligations.ResetEventFromAnyState : Prop :=
  ∀ (s : State) (rest : List Turn), s.agenda = .reset :: rest → ∃ t, step s = .next t ∧
    t.seq = 0x0#4 ∧ t.gie = false ∧ t.trace = [] ∧ t.lvl = s.lvl ∧ t.params = s.params ∧ t.agenda = rest ∧
    t.out = Config.resetOut s.draws ∧ t.idx = Config.resetIdx s.draws ∧ t.any = Config.resetAny s.draws ∧
    t.pend = Config.resetPend s.draws ∧ t.ie = Config.resetIe s.draws ∧ t.edge = Config.resetEdge s.draws ∧
    t.srvis = Config.resetSrvis s.draws ∧ (∀ n, s.params.tRelease = some n → t.waitcnt ≤ n) ∧
    t.draws = s.draws + 1

/-! ## Whole-machine rules -/

/-- R24, R25, R21, R34: who writes the data registers, over all instructions. -/
def Obligations.DataRegisterWriters : Prop :=
  ∀ (i : Instr) (s t : State), exec i s = .next t →
    (i ≠ .bootLoad → i ≠ .scanDrive → i ≠ .restore → t.out = s.out ∧ t.srvis = s.srvis) ∧
    (i = .bootLoad ∨ i = .scanDrive ∨ i = .restore → t.srvis = t.out ∧ t.trace = s.trace ++ [.srWrite t.out]) ∧
    (i ≠ .dispatch → i ≠ .scanSample → t.idx = s.idx ∧ t.any = s.any) ∧
    (i ≠ .restore → i ≠ .awaitRelease → t.waitcnt = s.waitcnt) ∧
    (s.params.tRelease = none → t.waitcnt = s.waitcnt)

/-- R22: no operation but BOOT_LOAD changes the LED part of `OUT`. -/
def Obligations.LedBitsPreserved : Prop :=
  ∀ (i : Instr) (s t : State), i ≠ .bootLoad → exec i s = .next t → t.out.extractLsb 3 0 = s.out.extractLsb 3 0

/-- R28, R30 to R33, R36: who writes the control registers, the levels and the sequencer register, over all
instructions; the parameters and the agenda are written by none. -/
def Obligations.ControlRegisterWriters : Prop :=
  ∀ (i : Instr) (s t : State), exec i s = .next t →
    (i ≠ .cfgEn → t.ie = s.ie) ∧ (s.ie = 0b11#2 → t.ie = 0b11#2) ∧
    (i ≠ .cfgEdge → t.edge = s.edge) ∧
    (i ≠ .cfgEn → i ≠ .idle → i ≠ .ret → t.gie = s.gie) ∧
    (i.isSequencer = true → t.lvl = s.lvl ∧ t.draws = s.draws) ∧
    (i.isSequencer = false → t.seq = s.seq ∧ t.gie = s.gie ∧ t.trace = s.trace) ∧
    t.params = s.params ∧ t.agenda = s.agenda

/-- R29, R181: with rising sense, a flag is set by a RISE of its line alone and cleared by DISPATCH, CFG_CLR and
CLR_ALL alone; a flag already set stays set on a further edge. That CFG_EDGE leaves the flags is the model's choice
(assumption 13). -/
def Obligations.PendingFlagWriters : Prop :=
  ∀ (i : Instr) (s t : State) (l : Line), exec i s = .next t → s.edge.getLsbD l.index = false →
    (s.pend.getLsbD l.index = false → t.pend.getLsbD l.index = true → i = .rise l) ∧
    (s.pend.getLsbD l.index = true → t.pend.getLsbD l.index = false → i = .dispatch ∨ i = .cfgClr ∨ i = .clrAll)

/-- R28, R144: a turn of the environment writes the level and the flag of its own line and nothing else of the
block. -/
def Obligations.EnvironmentHasNoOtherPower : Prop :=
  ∀ (s t : State) (w : BitVec 2) (rest : List Turn), s.agenda = .environment w :: rest → step s = .next t →
    t = { s with agenda := rest, lvl := t.lvl, pend := t.pend, draws := t.draws } ∧
    (w.getLsbD 0 = false → t.lvl.getLsbD 1 = s.lvl.getLsbD 1 ∧ t.pend.getLsbD 1 = s.pend.getLsbD 1) ∧
    (w.getLsbD 0 = true → t.lvl.getLsbD 0 = s.lvl.getLsbD 0 ∧ t.pend.getLsbD 0 = s.pend.getLsbD 0)

/-- R185: a trap is taken by the IDLE step alone: a step that records `Enter` is the sequencer's, in IDLE, with the
global enable on and an enabled source pending. -/
def Obligations.TrapTakenOnlyInIdle : Prop :=
  ∀ s t : State, step s = .next t → t.trace = s.trace ++ [.enter] →
    s.turn = .sequencer ∧ s.seq = 0x4#4 ∧ s.gie = true ∧ (s.pend &&& s.ie) ≠ 0b00#2 ∧ t.seq = 0x5#4 ∧ t.gie = false

/-- R190, R192: the only transitions between contexts are RESET to boot, CFG_EN from boot to main, acceptance from
main to interrupt, and RETURN from interrupt to main. -/
def Obligations.ContextTransitions : Prop :=
  ∀ (s t : State) (c : Context), contextOf s.seq = some c → step s = .next t →
    ∃ d, contextOf t.seq = some d ∧
      (d = c ∨ (s.turn = .reset ∧ d = .boot) ∨ (s.seq = 0x3#4 ∧ c = .boot ∧ d = .main) ∨
        (s.seq = 0x4#4 ∧ acceptEnabled s = true ∧ c = .main ∧ d = .interrupt) ∨
        (s.seq = 0xC#4 ∧ c = .interrupt ∧ d = .main))

/-- R53, R33: the level of ENCODER_A is read by no sequencer operation. -/
def Obligations.EncoderLevelInvisibleToSequencer : Prop :=
  ∀ (i : Instr) (s : State) (b : Bool), i.isSequencer = true →
    exec i { s with lvl := setLineBit s.lvl .encoderA b } =
      mapNext (fun t => { t with lvl := setLineBit t.lvl .encoderA b }) (exec i s)

/-- R34, R35: the history is read by no instruction, and the visible state of the shift register by none: another one before
an instruction is there after it, or is replaced by the same byte. -/
def Obligations.HistoryAndShiftRegisterUnread : Prop :=
  (∀ (i : Instr) (s : State) (past : List Event),
    exec i { s with trace := past ++ s.trace } = mapNext (fun t => { t with trace := past ++ t.trace }) (exec i s)) ∧
  (∀ (i : Instr) (s : State) (v : BitVec 8), exec i { s with srvis := v } = mapNext (fun t => { t with srvis :=
    if i = .bootLoad ∨ i = .scanDrive ∨ i = .restore then t.srvis else v }) (exec i s))

/-- R105: after DISPATCH the pending flags of an invocation have no effect up to its CLR_ALL, which drops them: no
operation of a handler reads or writes them, and CLR_ALL leaves the same state whatever they were. -/
def Obligations.EdgesDuringHandlerDropped : Prop :=
  (∀ (i : Instr) (s : State) (p : BitVec 2), i ∈ [.scanDrive, .scanSample, .restore, .awaitRelease, .rotCall] →
    exec i { s with pend := p } = mapNext (fun t => { t with pend := p }) (exec i s)) ∧
  (∀ (s : State) (p : BitVec 2), exec .clrAll { s with pend := p } = exec .clrAll s)

/-- R36: no step changes a parameter, RESET included. -/
def Obligations.ParametersNeverChange : Prop :=
  ∀ s t : State, step s = .next t → t.params = s.params

/-- R227: in a quiescent state the sequencer has no enabled step; conversely a state in which it has none is IDLE, and
is quiescent unless the global enable is off, which it never is there with sound registers. -/
def Obligations.QuiescentExactlyWhenSequencerHolds : Prop :=
  ∀ s : State, (quiescent s = true → turnEnabled s .sequencer = false) ∧
    (turnEnabled s .sequencer = false → s.seq = 0x4#4 ∧ (quiescent s = true ∨ s.gie = false)) ∧
    (RegistersSound s → (quiescent s = true ↔ turnEnabled s .sequencer = false))

/-! ## Invariants -/

/-- The state at reset meets both invariants. Its values that the spec leaves open are the model's choice
(assumption 1). -/
def Obligations.ResetMeetsInvariants : Prop := RegistersSound State.reset ∧ TraceSound State.reset

/-- R23, R30 to R32, R80, R26: from every state with sound registers every step gives one. -/
def Obligations.StepKeepsRegistersSound : Prop :=
  ∀ s t : State, RegistersSound s → step s = .next t → RegistersSound t

/-- R102, R115, R121, R132, R187: from every state with sound registers whose history is one the spec allows, every
step, whichever agent takes it, gives a state whose history is one the spec allows. -/
def Obligations.StepKeepsHistoryLawful : Prop :=
  ∀ s t : State, RegistersSound s → TraceSound s → step s = .next t → TraceSound t

/-- R80, R196: a step from sound registers never faults. -/
def Obligations.SoundStateStepsSafely : Prop := ∀ s : State, RegistersSound s → stepsSafely s

/-- R187: in an allowed history `Enter` and `Return` alternate, beginning with `Enter`. -/
def Obligations.EnterAndReturnAlternate : Prop := ∀ s : State, TraceSound s → alternates false s.trace

/-- R102, R115, R117, R104: between an `Enter` and the next `Return` of an allowed history there is exactly one
`PendClear` and exactly one `PendClearAll`; a scan writes exactly the five bytes of R117; an invocation of the encoder
writes none and invokes the handler once. -/
def Obligations.InvocationShape : Prop :=
  ∀ (s : State) (before inside after : List Event), TraceSound s →
    s.trace = before ++ [.enter] ++ inside ++ [.ret] ++ after → Event.enter ∉ inside → Event.ret ∉ inside →
    (inside.filter isPendClear).length = 1 ∧ inside.count .pendClearAll = 1 ∧
    (.pendClear .buttonArray ∈ inside → inside.count .rotInvoke = 0 ∧
      bytesWritten inside = [0x1#4 ++ s.params.leds, 0x2#4 ++ s.params.leds, 0x4#4 ++ s.params.leds,
        0x8#4 ++ s.params.leds, 0x0#4 ++ s.params.leds]) ∧
    (.pendClear .encoderA ∈ inside → inside.count .rotInvoke = 1 ∧ bytesWritten inside = [])

/-! ## Runs -/

/-- R94, R226: under every interleaving of four sequencer turns with the environment, boot ends in IDLE with the
registers of R94; the flags are clear when no RISE came after the third of them, CFG_CLR. -/
def Obligations.BootUnderAnyInterleaving : Prop :=
  ∀ (s : State) (ts : List Turn), s.seq = 0x0#4 → interleaves 4 ts → ∃ t, runTurns ts s = .next t ∧
    t.seq = 0x4#4 ∧ t.out = s.params.defaultPattern ∧ t.srvis = s.params.defaultPattern ∧ t.edge = 0b00#2 ∧
    t.ie = 0b11#2 ∧ t.gie = true ∧ t.trace = s.trace ++ [.srWrite s.params.defaultPattern, .pendClearAll] ∧
    t.idx = s.idx ∧ t.any = s.any ∧
    ∀ before after : List Turn, ts = before ++ .sequencer :: after → before.count .sequencer = 2 →
      .environment 0b10#2 ∉ after → .environment 0b11#2 ∉ after → t.pend = 0b00#2

/-- R115, R117, R119, R121: under every interleaving of nine sequencer turns with the environment, a scan from
position 0 makes its nine steps, whatever is read: the history gains exactly the scan of four samples, the pattern is
restored, and the wait follows exactly when a sample was asserted. -/
def Obligations.ScanUnderAnyInterleaving : Prop :=
  ∀ (s : State) (ts : List Turn) (sel : BitVec 4), s.seq = 0x6#4 → s.idx = 0#2 → s.any = false →
    s.out = sel ++ s.params.leds → interleaves 9 ts →
    ∃ (t : State) (s0 s1 s2 s3 : Bool), runTurns ts s = .next t ∧
      t.trace = s.trace ++ scanTrace s.params.leds s0 s1 s2 s3 ∧
      t.any = (s0 || s1 || s2 || s3) ∧ t.seq = (if t.any then 0x9#4 else 0xB#4) ∧
      t.out = s.params.defaultPattern ∧ t.srvis = s.params.defaultPattern ∧ t.idx = 3#2 ∧ t.gie = s.gie

/-- R226, R103: an invocation routed to the encoder ends after exactly five sequencer turns, under every interleaving
of the last three with the environment, and nothing is scanned. -/
def Obligations.EncoderInvocationTakesFiveTurns : Prop :=
  ∀ (s : State) (ts : List Turn), s.seq = 0x4#4 → s.gie = true → s.ie = 0b11#2 → s.pend = 0b10#2 →
    interleaves 3 ts → ∃ t, runTurns (.sequencer :: .sequencer :: ts) s = .next t ∧ t.seq = 0x4#4 ∧ t.gie = true ∧
      t.out = s.out ∧ t.srvis = s.srvis ∧
      t.trace = s.trace ++ [.enter, .pendClear .encoderA, .rotInvoke, .pendClearAll, .ret]

/-- R226, R118, R120: under every interleaving of thirteen sequencer turns with an environment that leaves the sense line
low, an invocation routed to the scanner ends, reports nothing and does not wait; the flags are clear when ENCODER_A did
not rise after CLR_ALL, the twelfth of them. -/
def Obligations.UnpressedInvocationTakesThirteenTurns : Prop :=
  ∀ (s : State) (ts : List Turn), s.seq = 0x4#4 → s.gie = true → s.ie = 0b11#2 → s.pend.getLsbD 0 = true →
    s.lvl.getLsbD 0 = false → s.out = s.params.defaultPattern → interleaves 13 ts → .environment 0b10#2 ∉ ts →
    ∃ t, runTurns ts s = .next t ∧
      t = { s with
        agenda := []
        waitcnt := if s.params.tRelease = none then s.waitcnt else 0
        trace := s.trace ++ [.enter, .pendClear .buttonArray] ++ scanTrace s.params.leds false false false false ++
          [.pendClearAll, .ret]
        pend := t.pend
        lvl := t.lvl
        draws := t.draws
        idx := 3#2
        any := false
        srvis := s.params.defaultPattern } ∧
      t.lvl.getLsbD 0 = false ∧ t.pend.getLsbD 0 = false ∧
      ∀ before after : List Turn, ts = before ++ .sequencer :: after → before.count .sequencer = 11 →
        s.edge = 0b00#2 → .environment 0b11#2 ∉ after → t.pend = 0b00#2

/-- R226, R130, R118: with the line held high for `k` polls and then released, an invocation ends after `14 + k`
sequencer turns, with a report of every position and `k` asserted polls. -/
def Obligations.HeldInvocationTakesFourteenPlusPolls : Prop :=
  ∀ (s : State) (k : Nat), s.seq = 0x4#4 → s.gie = true → s.ie = 0b11#2 → s.edge = 0b00#2 →
    s.pend.getLsbD 0 = true → s.lvl.getLsbD 0 = true → s.out = s.params.defaultPattern → s.params.tRelease = none →
    runTurns (List.replicate (11 + k) .sequencer ++ [.environment 0b00#2] ++ List.replicate 3 .sequencer) s =
      .next { s with
        agenda := []
        trace := s.trace ++ [.enter, .pendClear .buttonArray] ++ scanTrace s.params.leds true true true true ++
          List.replicate k (.poll true) ++ [.poll false, .pendClearAll, .ret]
        pend := 0b00#2
        lvl := s.lvl &&& 0b10#2
        idx := 3#2
        any := true
        srvis := s.params.defaultPattern }

/-- R131, R220: with `T_RELEASE = none`, while the line is held high the block stays in the wait under every
interleaving without a fall of the sense line: no interrupt is accepted and every turn of the sequencer is one
asserted poll. -/
def Obligations.HeldButtonBlocksForever : Prop :=
  ∀ (s : State) (ts : List Turn) (k : Nat), s.seq = 0x9#4 → s.params.tRelease = none → s.lvl.getLsbD 0 = true →
    interleaves k ts → Turn.environment 0b00#2 ∉ ts → ∃ t, runTurns ts s = .next t ∧ t.seq = 0x9#4 ∧
      t.gie = s.gie ∧ t.out = s.out ∧ t.lvl.getLsbD 0 = true ∧ t.trace = s.trace ++ List.replicate k (.poll true)

/-- R132: with `T_RELEASE = n` and the line held high, the wait makes exactly `n + 1` polls and ends by the
timeout. -/
def Obligations.BoundedWaitEnds : Prop :=
  ∀ (s : State) (n : Nat), s.seq = 0x9#4 → s.params.tRelease = some n → s.waitcnt = 0 → s.lvl.getLsbD 0 = true →
    runSequencer (n + 1) s = .next { s with
      agenda := []
      seq := 0xB#4
      waitcnt := n
      trace := s.trace ++ List.replicate (n + 1) (.poll true) ++ [.releaseTimeout] }

/-- R92, R93, R100, R214: an edge of either line between CFG_CLR and CFG_EN sets its flag, which CFG_EN leaves, and the
first step in IDLE accepts it. -/
def Obligations.EdgeBetweenClearAndEnableAccepted : Prop :=
  ∀ (s : State) (w : BitVec 2) (l : Line), decode (.evt2 w) = .ok (.rise l) → s.seq = 0x3#4 → s.edge = 0b00#2 →
    s.lvl.getLsbD l.index = false →
    runTurns [.environment w, .sequencer, .sequencer] s = .next { s with
      agenda := []
      seq := 0x5#4
      ie := 0b11#2
      gie := false
      lvl := s.lvl ||| lineMask l
      pend := s.pend ||| lineMask l
      trace := s.trace ++ [.enter] }

/-- R104, R105, R144: an edge of the other line during an encoder invocation is dropped when it comes before CLR_ALL,
and the block is then quiescent with the line high; it is kept when it comes between CLR_ALL and RETURN, and the next
acceptance is then enabled at once. -/
def Obligations.CoincidentEdgeDroppedOrKeptByOrder : Prop :=
  ∀ s : State, s.seq = 0xA#4 → s.ie = 0b11#2 → s.edge = 0b00#2 → s.lvl.getLsbD 0 = false →
    (∃ t, runTurns [.environment 0b10#2, .sequencer, .sequencer, .sequencer] s = .next t ∧ t.pend = 0b00#2 ∧
      quiescent t = true ∧ t.lvl.getLsbD 0 = true ∧ t.trace = s.trace ++ [.rotInvoke, .pendClearAll, .ret]) ∧
    (∃ t, runTurns [.sequencer, .sequencer, .environment 0b10#2, .sequencer] s = .next t ∧ t.pend = 0b01#2 ∧
      t.seq = 0x4#4 ∧ turnEnabled t .sequencer = true ∧ t.lvl.getLsbD 0 = true ∧
      t.trace = s.trace ++ [.rotInvoke, .pendClearAll, .ret])

/-- R83: the composites add no behaviour: the turns of the sequencer from their first state are the composite's
operations in their order. -/
def Obligations.CompositesAreTheirOperations : Prop :=
  (∀ s : State, s.seq = 0x0#4 → runSequencer 4 s = execAll Composite.boot { s with agenda := [] }) ∧
  (∀ s : State, s.seq = 0x6#4 → s.idx = 0#2 → runSequencer 9 s = execAll Composite.scan { s with agenda := [] }) ∧
  (∀ s : State, s.seq = 0x4#4 → s.gie = true → s.ie = 0b11#2 → s.pend = 0b10#2 →
    runSequencer 5 s = execAll (Composite.invocation Composite.serviceEncoder) { s with agenda := [] })

/-! ## The collaborators, outside the block -/

/-- R154: the callback writes the label of its index, on one fixed row below the primary readout, and nothing else. That a
row below is one of a greater number is the model's deduction (assumption 10), and that the column is fixed too (assumption
10) and the label bare (assumption 15) its choice. -/
def Obligations.ButtonCallbackWritesLabel : Prop :=
  (∃ row column : Nat, Config.primaryRow < row ∧ ∀ (i : Nat) (c : Surroundings),
    buttonCallback i c = { c with display := c.display ++ [⟨buttonLabel i, row, column⟩] }) ∧
  buttonLabel 0 = "POWER".toList ∧ buttonLabel 1 = "MENU1".toList ∧ buttonLabel 2 = "SELECT".toList ∧
  buttonLabel 3 = "MENU2".toList ∧ ∀ i, 4 ≤ i → buttonLabel i = Config.unrecognizedLabel

/-- R159, R164: one query decides: clockwise steps up and renders, counter-clockwise steps down and renders only above
zero and otherwise leaves everything, none does nothing. The arithmetic is binary32 (G1, assumption 9). -/
def Obligations.RotationHandlerContract : Prop :=
  (∀ (answers : Nat → RotationDirection) (c : Surroundings), answers c.queries = .clockwise →
    c.absorb answers .rotInvoke =
      voltageRenderer { c with queries := c.queries + 1, counter := roundToSingle (c.counter + rotationStep) }) ∧
  (∀ (answers : Nat → RotationDirection) (c : Surroundings), answers c.queries = .counterClockwise →
    0 < c.counter → c.absorb answers .rotInvoke =
      voltageRenderer { c with queries := c.queries + 1, counter := roundToSingle (c.counter - rotationStep) }) ∧
  (∀ (answers : Nat → RotationDirection) (c : Surroundings), answers c.queries = .counterClockwise →
    c.counter ≤ 0 → c.absorb answers .rotInvoke = .ok { c with queries := c.queries + 1 }) ∧
  (∀ (answers : Nat → RotationDirection) (c : Surroundings), answers c.queries = .none →
    c.absorb answers .rotInvoke = .ok { c with queries := c.queries + 1 })

/-- R160: a readout that the renderer writes ends at the sixteenth column of the primary row, padded or offset, and
its text is the readout; a longer text is the one stop. That the field starts at column 0, and the stop's form, are the
model's (assumption 10). -/
def Obligations.RendererRightAligns : Prop :=
  (∀ c d : Surroundings, voltageRenderer c = .ok d →
    ∃ (pad : Nat) (column : Nat), d = { c with display :=
        c.display ++ [⟨List.replicate pad ' ' ++ readoutText c.counter, Config.primaryRow, column⟩] } ∧
      column + pad + (readoutText c.counter).length = 16) ∧
  (∀ (c : Surroundings) (text : List Char), voltageRenderer c = .error (.overlong text) ↔
    16 < (readoutText c.counter).length ∧ text = readoutText c.counter)
end

