-- ==== Sys2Proof/Laws/State.lean ====
section
/-! SUPPORT. One lemma per field per update of the state, so that no later proof unfolds a record update. -/

namespace Sys2Proof.Machine

variable (s : State)

/-! ## `emit` -/

@[simp] theorem State.emit_seq (e : Event) : (s.emit e).seq = s.seq := rfl
@[simp] theorem State.emit_out (e : Event) : (s.emit e).out = s.out := rfl
@[simp] theorem State.emit_idx (e : Event) : (s.emit e).idx = s.idx := rfl
@[simp] theorem State.emit_any (e : Event) : (s.emit e).any = s.any := rfl
@[simp] theorem State.emit_waitcnt (e : Event) : (s.emit e).waitcnt = s.waitcnt := rfl
@[simp] theorem State.emit_pend (e : Event) : (s.emit e).pend = s.pend := rfl
@[simp] theorem State.emit_ie (e : Event) : (s.emit e).ie = s.ie := rfl
@[simp] theorem State.emit_edge (e : Event) : (s.emit e).edge = s.edge := rfl
@[simp] theorem State.emit_gie (e : Event) : (s.emit e).gie = s.gie := rfl
@[simp] theorem State.emit_lvl (e : Event) : (s.emit e).lvl = s.lvl := rfl
@[simp] theorem State.emit_srvis (e : Event) : (s.emit e).srvis = s.srvis := rfl
@[simp] theorem State.emit_trace (e : Event) : (s.emit e).trace = s.trace ++ [e] := rfl
@[simp] theorem State.emit_params (e : Event) : (s.emit e).params = s.params := rfl
@[simp] theorem State.emit_agenda (e : Event) : (s.emit e).agenda = s.agenda := rfl
@[simp] theorem State.emit_draws (e : Event) : (s.emit e).draws = s.draws := rfl

/-! ## `goto` -/

@[simp] theorem State.goto_seq (code : BitVec 4) : (s.goto code).seq = code := rfl
@[simp] theorem State.goto_out (code : BitVec 4) : (s.goto code).out = s.out := rfl
@[simp] theorem State.goto_idx (code : BitVec 4) : (s.goto code).idx = s.idx := rfl
@[simp] theorem State.goto_any (code : BitVec 4) : (s.goto code).any = s.any := rfl
@[simp] theorem State.goto_waitcnt (code : BitVec 4) : (s.goto code).waitcnt = s.waitcnt := rfl
@[simp] theorem State.goto_pend (code : BitVec 4) : (s.goto code).pend = s.pend := rfl
@[simp] theorem State.goto_ie (code : BitVec 4) : (s.goto code).ie = s.ie := rfl
@[simp] theorem State.goto_edge (code : BitVec 4) : (s.goto code).edge = s.edge := rfl
@[simp] theorem State.goto_gie (code : BitVec 4) : (s.goto code).gie = s.gie := rfl
@[simp] theorem State.goto_lvl (code : BitVec 4) : (s.goto code).lvl = s.lvl := rfl
@[simp] theorem State.goto_srvis (code : BitVec 4) : (s.goto code).srvis = s.srvis := rfl
@[simp] theorem State.goto_trace (code : BitVec 4) : (s.goto code).trace = s.trace := rfl
@[simp] theorem State.goto_params (code : BitVec 4) : (s.goto code).params = s.params := rfl
@[simp] theorem State.goto_agenda (code : BitVec 4) : (s.goto code).agenda = s.agenda := rfl
@[simp] theorem State.goto_draws (code : BitVec 4) : (s.goto code).draws = s.draws := rfl

/-! ## `srWrite` -/

@[simp] theorem State.srWrite_seq (v : BitVec 8) : (s.srWrite v).seq = s.seq := rfl
@[simp] theorem State.srWrite_out (v : BitVec 8) : (s.srWrite v).out = s.out := rfl
@[simp] theorem State.srWrite_idx (v : BitVec 8) : (s.srWrite v).idx = s.idx := rfl
@[simp] theorem State.srWrite_any (v : BitVec 8) : (s.srWrite v).any = s.any := rfl
@[simp] theorem State.srWrite_waitcnt (v : BitVec 8) : (s.srWrite v).waitcnt = s.waitcnt := rfl
@[simp] theorem State.srWrite_pend (v : BitVec 8) : (s.srWrite v).pend = s.pend := rfl
@[simp] theorem State.srWrite_ie (v : BitVec 8) : (s.srWrite v).ie = s.ie := rfl
@[simp] theorem State.srWrite_edge (v : BitVec 8) : (s.srWrite v).edge = s.edge := rfl
@[simp] theorem State.srWrite_gie (v : BitVec 8) : (s.srWrite v).gie = s.gie := rfl
@[simp] theorem State.srWrite_lvl (v : BitVec 8) : (s.srWrite v).lvl = s.lvl := rfl
@[simp] theorem State.srWrite_srvis (v : BitVec 8) : (s.srWrite v).srvis = v := rfl
@[simp] theorem State.srWrite_trace (v : BitVec 8) : (s.srWrite v).trace = s.trace ++ [.srWrite v] := rfl
@[simp] theorem State.srWrite_params (v : BitVec 8) : (s.srWrite v).params = s.params := rfl
@[simp] theorem State.srWrite_agenda (v : BitVec 8) : (s.srWrite v).agenda = s.agenda := rfl
@[simp] theorem State.srWrite_draws (v : BitVec 8) : (s.srWrite v).draws = s.draws := rfl

/-! ## `driveOut` -/

@[simp] theorem State.driveOut_seq (v : BitVec 8) : (s.driveOut v).seq = s.seq := rfl
@[simp] theorem State.driveOut_out (v : BitVec 8) : (s.driveOut v).out = v := rfl
@[simp] theorem State.driveOut_idx (v : BitVec 8) : (s.driveOut v).idx = s.idx := rfl
@[simp] theorem State.driveOut_any (v : BitVec 8) : (s.driveOut v).any = s.any := rfl
@[simp] theorem State.driveOut_waitcnt (v : BitVec 8) : (s.driveOut v).waitcnt = s.waitcnt := rfl
@[simp] theorem State.driveOut_pend (v : BitVec 8) : (s.driveOut v).pend = s.pend := rfl
@[simp] theorem State.driveOut_ie (v : BitVec 8) : (s.driveOut v).ie = s.ie := rfl
@[simp] theorem State.driveOut_edge (v : BitVec 8) : (s.driveOut v).edge = s.edge := rfl
@[simp] theorem State.driveOut_gie (v : BitVec 8) : (s.driveOut v).gie = s.gie := rfl
@[simp] theorem State.driveOut_lvl (v : BitVec 8) : (s.driveOut v).lvl = s.lvl := rfl
@[simp] theorem State.driveOut_srvis (v : BitVec 8) : (s.driveOut v).srvis = v := rfl
@[simp] theorem State.driveOut_trace (v : BitVec 8) : (s.driveOut v).trace = s.trace ++ [.srWrite v] := rfl
@[simp] theorem State.driveOut_params (v : BitVec 8) : (s.driveOut v).params = s.params := rfl
@[simp] theorem State.driveOut_agenda (v : BitVec 8) : (s.driveOut v).agenda = s.agenda := rfl
@[simp] theorem State.driveOut_draws (v : BitVec 8) : (s.driveOut v).draws = s.draws := rfl

/-! ## `clearPend` -/

@[simp] theorem State.clearPend_seq (l : Line) : (s.clearPend l).seq = s.seq := rfl
@[simp] theorem State.clearPend_out (l : Line) : (s.clearPend l).out = s.out := rfl
@[simp] theorem State.clearPend_idx (l : Line) : (s.clearPend l).idx = s.idx := rfl
@[simp] theorem State.clearPend_any (l : Line) : (s.clearPend l).any = s.any := rfl
@[simp] theorem State.clearPend_waitcnt (l : Line) : (s.clearPend l).waitcnt = s.waitcnt := rfl
@[simp] theorem State.clearPend_pend (l : Line) : (s.clearPend l).pend = setLineBit s.pend l false := rfl
@[simp] theorem State.clearPend_ie (l : Line) : (s.clearPend l).ie = s.ie := rfl
@[simp] theorem State.clearPend_edge (l : Line) : (s.clearPend l).edge = s.edge := rfl
@[simp] theorem State.clearPend_gie (l : Line) : (s.clearPend l).gie = s.gie := rfl
@[simp] theorem State.clearPend_lvl (l : Line) : (s.clearPend l).lvl = s.lvl := rfl
@[simp] theorem State.clearPend_srvis (l : Line) : (s.clearPend l).srvis = s.srvis := rfl
@[simp] theorem State.clearPend_trace (l : Line) : (s.clearPend l).trace = s.trace ++ [.pendClear l] := rfl
@[simp] theorem State.clearPend_params (l : Line) : (s.clearPend l).params = s.params := rfl
@[simp] theorem State.clearPend_agenda (l : Line) : (s.clearPend l).agenda = s.agenda := rfl
@[simp] theorem State.clearPend_draws (l : Line) : (s.clearPend l).draws = s.draws := rfl

/-! ## `clearAllPend` -/

@[simp] theorem State.clearAllPend_seq : s.clearAllPend.seq = s.seq := rfl
@[simp] theorem State.clearAllPend_out : s.clearAllPend.out = s.out := rfl
@[simp] theorem State.clearAllPend_idx : s.clearAllPend.idx = s.idx := rfl
@[simp] theorem State.clearAllPend_any : s.clearAllPend.any = s.any := rfl
@[simp] theorem State.clearAllPend_waitcnt : s.clearAllPend.waitcnt = s.waitcnt := rfl
@[simp] theorem State.clearAllPend_pend : s.clearAllPend.pend = 0b00#2 := rfl
@[simp] theorem State.clearAllPend_ie : s.clearAllPend.ie = s.ie := rfl
@[simp] theorem State.clearAllPend_edge : s.clearAllPend.edge = s.edge := rfl
@[simp] theorem State.clearAllPend_gie : s.clearAllPend.gie = s.gie := rfl
@[simp] theorem State.clearAllPend_lvl : s.clearAllPend.lvl = s.lvl := rfl
@[simp] theorem State.clearAllPend_srvis : s.clearAllPend.srvis = s.srvis := rfl
@[simp] theorem State.clearAllPend_trace : s.clearAllPend.trace = s.trace ++ [.pendClearAll] := rfl
@[simp] theorem State.clearAllPend_params : s.clearAllPend.params = s.params := rfl
@[simp] theorem State.clearAllPend_agenda : s.clearAllPend.agenda = s.agenda := rfl
@[simp] theorem State.clearAllPend_draws : s.clearAllPend.draws = s.draws := rfl

/-! ## `takeInterrupt` -/

@[simp] theorem State.takeInterrupt_seq : s.takeInterrupt.seq = Code.dispatch := rfl
@[simp] theorem State.takeInterrupt_out : s.takeInterrupt.out = s.out := rfl
@[simp] theorem State.takeInterrupt_idx : s.takeInterrupt.idx = s.idx := rfl
@[simp] theorem State.takeInterrupt_any : s.takeInterrupt.any = s.any := rfl
@[simp] theorem State.takeInterrupt_waitcnt : s.takeInterrupt.waitcnt = s.waitcnt := rfl
@[simp] theorem State.takeInterrupt_pend : s.takeInterrupt.pend = s.pend := rfl
@[simp] theorem State.takeInterrupt_ie : s.takeInterrupt.ie = s.ie := rfl
@[simp] theorem State.takeInterrupt_edge : s.takeInterrupt.edge = s.edge := rfl
@[simp] theorem State.takeInterrupt_gie : s.takeInterrupt.gie = false := rfl
@[simp] theorem State.takeInterrupt_lvl : s.takeInterrupt.lvl = s.lvl := rfl
@[simp] theorem State.takeInterrupt_srvis : s.takeInterrupt.srvis = s.srvis := rfl
@[simp] theorem State.takeInterrupt_trace : s.takeInterrupt.trace = s.trace ++ [.enter] := rfl
@[simp] theorem State.takeInterrupt_params : s.takeInterrupt.params = s.params := rfl
@[simp] theorem State.takeInterrupt_agenda : s.takeInterrupt.agenda = s.agenda := rfl
@[simp] theorem State.takeInterrupt_draws : s.takeInterrupt.draws = s.draws := rfl

/-! ## `returnFromInterrupt` -/

@[simp] theorem State.returnFromInterrupt_seq : s.returnFromInterrupt.seq = Code.idle := rfl
@[simp] theorem State.returnFromInterrupt_out : s.returnFromInterrupt.out = s.out := rfl
@[simp] theorem State.returnFromInterrupt_idx : s.returnFromInterrupt.idx = s.idx := rfl
@[simp] theorem State.returnFromInterrupt_any : s.returnFromInterrupt.any = s.any := rfl
@[simp] theorem State.returnFromInterrupt_waitcnt : s.returnFromInterrupt.waitcnt = s.waitcnt := rfl
@[simp] theorem State.returnFromInterrupt_pend : s.returnFromInterrupt.pend = s.pend := rfl
@[simp] theorem State.returnFromInterrupt_ie : s.returnFromInterrupt.ie = s.ie := rfl
@[simp] theorem State.returnFromInterrupt_edge : s.returnFromInterrupt.edge = s.edge := rfl
@[simp] theorem State.returnFromInterrupt_gie : s.returnFromInterrupt.gie = true := rfl
@[simp] theorem State.returnFromInterrupt_lvl : s.returnFromInterrupt.lvl = s.lvl := rfl
@[simp] theorem State.returnFromInterrupt_srvis : s.returnFromInterrupt.srvis = s.srvis := rfl
@[simp] theorem State.returnFromInterrupt_trace : s.returnFromInterrupt.trace = s.trace ++ [.ret] := rfl
@[simp] theorem State.returnFromInterrupt_params : s.returnFromInterrupt.params = s.params := rfl
@[simp] theorem State.returnFromInterrupt_agenda : s.returnFromInterrupt.agenda = s.agenda := rfl
@[simp] theorem State.returnFromInterrupt_draws : s.returnFromInterrupt.draws = s.draws := rfl

/-! ## `advance` -/

@[simp] theorem State.advance_seq : s.advance.seq = s.seq := rfl
@[simp] theorem State.advance_out : s.advance.out = s.out := rfl
@[simp] theorem State.advance_idx : s.advance.idx = s.idx := rfl
@[simp] theorem State.advance_any : s.advance.any = s.any := rfl
@[simp] theorem State.advance_waitcnt : s.advance.waitcnt = s.waitcnt := rfl
@[simp] theorem State.advance_pend : s.advance.pend = s.pend := rfl
@[simp] theorem State.advance_ie : s.advance.ie = s.ie := rfl
@[simp] theorem State.advance_edge : s.advance.edge = s.edge := rfl
@[simp] theorem State.advance_gie : s.advance.gie = s.gie := rfl
@[simp] theorem State.advance_lvl : s.advance.lvl = s.lvl := rfl
@[simp] theorem State.advance_srvis : s.advance.srvis = s.srvis := rfl
@[simp] theorem State.advance_trace : s.advance.trace = s.trace := rfl
@[simp] theorem State.advance_params : s.advance.params = s.params := rfl
@[simp] theorem State.advance_agenda : s.advance.agenda = s.agenda.tail := rfl
@[simp] theorem State.advance_draws : s.advance.draws = s.draws := rfl

/-! ## The port calls are events and nothing else -/

@[simp] theorem State.buttonReport_eq (i : BitVec 2) : s.buttonReport i = s.emit (.buttonReport i) := rfl
@[simp] theorem State.rotInvoke_eq : s.rotInvoke = s.emit .rotInvoke := rfl

/-! ## RESET: what the spec fixes (R143) -/

@[simp] theorem State.takeReset_seq : s.takeReset.seq = Code.bootLoad := rfl
@[simp] theorem State.takeReset_gie : s.takeReset.gie = false := rfl
@[simp] theorem State.takeReset_trace : s.takeReset.trace = [] := rfl
@[simp] theorem State.takeReset_lvl : s.takeReset.lvl = s.lvl := rfl
@[simp] theorem State.takeReset_params : s.takeReset.params = s.params := rfl
@[simp] theorem State.takeReset_agenda : s.takeReset.agenda = s.agenda := rfl

end Sys2Proof.Machine
end

