-- ==== Sys2Proof/Laws/Ops.lean ====
section
/-! SUPPORT. One spec lemma per shared operation: what the line accessors, the pattern assembly, a change of level and
the record of a sample do, said once. -/

namespace Sys2Proof.Machine

/-! ## The bits of a two-bit register by line -/

@[simp] theorem lineBit_buttonArray (r : BitVec 2) : lineBit r .buttonArray = r.getLsbD 0 := rfl
@[simp] theorem lineBit_encoderA (r : BitVec 2) : lineBit r .encoderA = r.getLsbD 1 := rfl

/-- Setting a bit of a line is an or with the line's mask. -/
theorem setLineBit_true (r : BitVec 2) (l : Line) : setLineBit r l true = r ||| lineMask l := rfl

/-- A line's bit reads as it was set. -/
theorem lineBit_setLineBit_same (r : BitVec 2) (l : Line) (b : Bool) : lineBit (setLineBit r l b) l = b := by
  revert r; cases l <;> cases b <;> decide

/-- Setting one line's bit leaves the other line's. -/
theorem lineBit_setLineBit_other (r : BitVec 2) (l k : Line) (b : Bool) (h : k ≠ l) :
    lineBit (setLineBit r l b) k = lineBit r k := by
  revert r; cases l <;> cases k <;> cases b <;> first | exact absurd rfl h | decide

/-- Two registers with the same bit of each line are the same. -/
theorem eq_of_lineBits (r q : BitVec 2) (h : ∀ l, lineBit r l = lineBit q l) : r = q := by
  have h0 := h .buttonArray
  have h1 := h .encoderA
  clear h
  revert r q; decide

/-! ## The pattern -/

/-- The transient pattern is one select bit over the LED bits of the pattern it is made from (R73). -/
theorem transient_append (sel leds : BitVec 4) (i : BitVec 2) :
    transient (sel ++ leds) i = (1#4 <<< i.toNat) ++ leds := by
  revert sel leds i; decide

/-- The restored pattern is the LED bits alone (R73). -/
theorem restored_append (sel leds : BitVec 4) : restored (sel ++ leds) = 0#4 ++ leds := by
  revert sel leds; decide

/-! ## A change of level, and the record of a sample -/

/-- With rising sense a rising edge sets the level and the flag, a falling edge clears the level alone (R140, R141). -/
theorem State.levelChange_rising (s : State) (l : Line) (level : Bool) (h : edgeIsRising s l = true) :
    s.levelChange l level =
      { s with lvl := setLineBit s.lvl l level, pend := if level then setLineBit s.pend l true else s.pend } := by
  simp [State.levelChange, h]

/-- A change of level writes `LVL` and `PEND` and, of the model's own fields, the count of draws (R144). -/
theorem State.levelChange_frame (s : State) (l : Line) (level : Bool) :
    s.levelChange l level =
      { s with
        lvl := setLineBit s.lvl l level
        pend := (s.levelChange l level).pend
        draws := (s.levelChange l level).draws } := by
  unfold State.levelChange; split <;> rfl

/-- The record of a sample writes `TRACE` and `ANY` alone (R118). -/
theorem State.recordSample_eq (s : State) (level : Bool) :
    s.recordSample level =
      { s with
        any := s.any || level
        trace := s.trace ++ .sample s.idx level :: (if level then [.buttonReport s.idx] else []) } := by
  cases level <;> simp [State.recordSample, anyAfterSample, State.emit]

end Sys2Proof.Machine
end

