-- ==== Sys2Proof/Laws/PerInstr.lean ====
section
/-! SUPPORT. Statements about every instruction as syntax, one lemma per constructor. -/

namespace Sys2Proof.Laws.TableRow

/-- The word the encoder gives meets the instruction's own row of spec/opcode_table.json and no other row, and is
well formed. -/
def Statement (i : Instr) : Prop :=
  (encode i).wf = true ∧ ∀ j : Instr, j.row.meets (encode i) = true ↔ j.row = i.row

/-- A row depends on an instruction's constructor alone, so one instruction of each constructor stands for all. -/
theorem of_rows {i : Instr} (hw : (encode i).wf = true)
    (hs : ∀ j ∈ [Instr.bootLoad, .cfgEdge, .cfgClr, .cfgEn, .idle, .dispatch, .scanDrive, .scanSample, .restore,
      .awaitRelease, .rotCall, .clrAll, .ret], j.row.meets (encode i) = true ↔ j.row = i.row)
    (he : ∀ j ∈ [Instr.rise .buttonArray, .fall .buttonArray], j.row.meets (encode i) = true ↔ j.row = i.row) :
    Statement i := by
  refine ⟨hw, fun j => ?_⟩
  cases j with
  | rise l => exact he (.rise .buttonArray) (by decide)
  | fall l => exact he (.fall .buttonArray) (by decide)
  | _ => exact hs _ (by decide)

theorem bootLoad : Statement .bootLoad := of_rows rfl (by decide) (by decide)
theorem cfgEdge : Statement .cfgEdge := of_rows rfl (by decide) (by decide)
theorem cfgClr : Statement .cfgClr := of_rows rfl (by decide) (by decide)
theorem cfgEn : Statement .cfgEn := of_rows rfl (by decide) (by decide)
theorem idle : Statement .idle := of_rows rfl (by decide) (by decide)
theorem dispatch : Statement .dispatch := of_rows rfl (by decide) (by decide)
theorem scanDrive : Statement .scanDrive := of_rows rfl (by decide) (by decide)
theorem scanSample : Statement .scanSample := of_rows rfl (by decide) (by decide)
theorem restore : Statement .restore := of_rows rfl (by decide) (by decide)
theorem awaitRelease : Statement .awaitRelease := of_rows rfl (by decide) (by decide)
theorem rotCall : Statement .rotCall := of_rows rfl (by decide) (by decide)
theorem clrAll : Statement .clrAll := of_rows rfl (by decide) (by decide)
theorem ret : Statement .ret := of_rows rfl (by decide) (by decide)
theorem rise (l : Line) : Statement (.rise l) := by
  cases l <;> exact of_rows rfl (by decide) (by decide)
theorem fall (l : Line) : Statement (.fall l) := by
  cases l <;> exact of_rows rfl (by decide) (by decide)

end Sys2Proof.Laws.TableRow
end

