-- ==== Sys2Proof/Laws/Step.lean ====
section
/-! SUPPORT. What a step can do, said once; decoding by cases; runs of turns. -/

namespace Sys2Proof.Machine

/-- A step runs the instruction of the word it fetches, its turn used up. -/
theorem step_of_fetch (s : State) (w : CodeWord) (i : Instr) (hw : s.fetch = some w) (hi : decode w = .ok i) :
    step s = exec i s.advance := by
  simp [step, hw, hi]

/-- Everything a step that answers a next state can have done: a RESET, or one instruction. -/
theorem step_cases (s t : State) (h : step s = .next t) :
    (s.turn = .reset ∧ t = s.advance.takeReset) ∨
    ∃ w i, s.fetch = some w ∧ decode w = .ok i ∧ exec i s.advance = .next t := by
  unfold step at h
  split at h
  next hf =>
    left
    refine ⟨?_, by simpa using h.symm⟩
    cases ht : s.turn <;> simp [State.fetch, ht] at hf ⊢
  next w hf =>
    right
    split at h
    next i hi => exact ⟨w, i, hf, hi, h⟩
    next => simp at h

/-- The sixteen values of `SEQ`, for case splits. -/
theorem seqCode_cases : ∀ c : BitVec 4,
    (c = 0x0#4 ∨ c = 0x1#4 ∨ c = 0x2#4 ∨ c = 0x3#4 ∨ c = 0x4#4 ∨ c = 0x5#4 ∨ c = 0x6#4 ∨ c = 0x7#4) ∨
    (c = 0x8#4 ∨ c = 0x9#4 ∨ c = 0xA#4 ∨ c = 0xB#4 ∨ c = 0xC#4 ∨ c = 0xD#4 ∨ c = 0xE#4 ∨ c = 0xF#4) := by
  decide

/-- A code that decodes is the code of what it decodes to. -/
theorem encode_of_decodeSeq4 (c : BitVec 4) (i : Instr) (h : decodeSeq4 c = .ok i) :
    encode i = .seq4 c ∧ i.isSequencer = true := by
  unfold decodeSeq4 at h
  split at h <;> cases h <;> rename_i hc <;>
    exact ⟨congrArg CodeWord.seq4 (BitVec.eq_of_toNat_eq hc.symm), rfl⟩

/-- An `EVT2` word decodes to an event of the environment. -/
theorem decodeEvt2_cases (w : BitVec 2) : ∃ l, decodeEvt2 w = .rise l ∨ decodeEvt2 w = .fall l := by
  refine ⟨Line.ofBit (w.getLsbD 0), ?_⟩
  unfold decodeEvt2
  split
  · exact .inl rfl
  · exact .inr rfl

/-! ## Runs -/

/-- A run of no turn. -/
theorem runTurns_nil (s : State) : runTurns [] s = .next { s with agenda := [] } := rfl

/-- A run of one turn more: the first step, then the rest. -/
theorem runTurns_cons (t : Turn) (ts : List Turn) (s u : State)
    (h : step { s with agenda := t :: ts } = .next u) (ha : u.agenda = ts) :
    runTurns (t :: ts) s = runTurns ts u := by
  subst ha
  have hstep : Sys2Proof.core.step { s with agenda := t :: u.agenda } = .next u := h
  simp only [runTurns, List.length_cons, Host.Core.run, hstep]
  rfl

/-! ## The language of the event history -/

/-- A history is read event by event. -/
theorem traceRun_append (p : Params) (ph : TracePhase) (es fs : List Event) :
    traceRun p ph (es ++ fs) = (traceRun p ph es).bind fun ph' => traceRun p ph' fs := by
  induction es generalizing ph with
  | nil => rfl
  | cons e es ih =>
    simp only [List.cons_append, traceRun]
    cases traceNext p ph e with
    | none => rfl
    | some ph' => exact ih ph'

end Sys2Proof.Machine
end

