-- ==== Sys2Proof/Tests/Slice0.lean ====
section
/-! SUPPORT. The model's own tests, each of one step on a small state, with results taken from spec/95_test_vectors.md
(the vector is named) or from the rule named; the well-formedness smoke; and for every obligation with hypotheses a
state and operands that meet them. -/

namespace Sys2Proof.Tests

open Sys2Proof.Machine

/-! ## Helpers -/

/-- The vectors' default: `DEFAULT_PATTERN = 0x05`, `T_RELEASE = none`, everything else 0. -/
def st : State := { State.reset with params := ⟨0x5#4, none⟩ }

/-- A state of the vectors in IDLE, quiescent (`Q`). -/
def q : State := { st with seq := 0x4#4, out := 0x05#8, srvis := 0x05#8, ie := 0b11#2, gie := true }

/-- What a field reads after an outcome; none when there is no next state. -/
def after {α : Type} (o : Host.Outcome State Fault Refusal) (f : State → α) : Option α :=
  match o with
  | .next s => some (f s)
  | _ => none

/-! ## Well-formedness smoke: each check refuses an ill-formed term -/

theorem smoke_reserved_D : (CodeWord.seq4 0xD#4).wf = false := by decide
theorem smoke_reserved_E : (CodeWord.seq4 0xE#4).wf = false := by decide
theorem smoke_reserved_F : (CodeWord.seq4 0xF#4).wf = false := by decide
theorem smoke_last_code : (CodeWord.seq4 0xC#4).wf = true := by decide
theorem smoke_pattern_0x15 : Params.ofPattern 0x15#8 none = none := by decide
theorem smoke_pattern_each_select_bit :
    (Params.ofPattern 0x10#8 none, Params.ofPattern 0x20#8 none, Params.ofPattern 0x40#8 none,
      Params.ofPattern 0x80#8 none) = (none, none, none, none) := by decide
theorem smoke_pattern_0x0F : (Params.ofPattern 0x0F#8 none).map Params.defaultPattern = some 0x0F#8 := by decide

/-! ## Decoding: words written out from R71 and R72 -/

theorem test_decode_boot : decode (.seq4 0b0000#4) = .ok .bootLoad ∧ decode (.seq4 0b0001#4) = .ok .cfgEdge ∧
    decode (.seq4 0b0010#4) = .ok .cfgClr ∧ decode (.seq4 0b0011#4) = .ok .cfgEn := by decide +kernel
theorem test_decode_dispatch : decode (.seq4 0b0100#4) = .ok .idle ∧ decode (.seq4 0b0101#4) = .ok .dispatch ∧
    decode (.seq4 0b1010#4) = .ok .rotCall ∧ decode (.seq4 0b1011#4) = .ok .clrAll ∧
    decode (.seq4 0b1100#4) = .ok .ret := by decide +kernel
theorem test_decode_scan : decode (.seq4 0b0110#4) = .ok .scanDrive ∧ decode (.seq4 0b0111#4) = .ok .scanSample ∧
    decode (.seq4 0b1000#4) = .ok .restore := by decide +kernel
theorem test_decode_wait : decode (.seq4 0b1001#4) = .ok .awaitRelease := by decide +kernel
theorem test_decode_events : decode (.evt2 0b10#2) = .ok (.rise .buttonArray) ∧
    decode (.evt2 0b11#2) = .ok (.rise .encoderA) ∧ decode (.evt2 0b00#2) = .ok (.fall .buttonArray) ∧
    decode (.evt2 0b01#2) = .ok (.fall .encoderA) := by decide +kernel
theorem test_decode_reserved : decode (.seq4 0b1101#4) = .error (.reservedSeq 0xD#4) ∧
    decode (.seq4 0b1110#4) = .error (.reservedSeq 0xE#4) ∧
    decode (.seq4 0b1111#4) = .error (.reservedSeq 0xF#4) := by decide +kernel
theorem test_table_word_formats : decodeTableWord 4 0x2 = some .cfgClr ∧ decodeTableWord 2 0x2 = some (.rise .buttonArray) ∧
    decodeTableWord 4 0xD = none := by decide
theorem test_placed_boot_load : after (step (State.reset.withFetchWord 4 0x0)) State.seq = some 0x1#4 := by decide
theorem test_placed_rise_encoder : after (step (State.reset.withFetchWord 2 0x3)) State.lvl = some 0b10#2 := by decide

/-! ## Boot -/

/-- VB1. -/
theorem test_bootLoad : after (exec .bootLoad st) (fun s => (s.out, s.srvis, s.seq, s.trace)) =
    some (0x05#8, 0x05#8, 0x1#4, [.srWrite 0x05#8]) := by decide
/-- VB2. -/
theorem test_bootLoad_all_leds : after (exec .bootLoad { st with params := ⟨0xF#4, none⟩ }) State.out = some 0x0F#8 := by
  decide
/-- VB4. -/
theorem test_cfgEdge : after (exec .cfgEdge { st with edge := 0b11#2 }) (fun s => (s.edge, s.seq)) =
    some (0b00#2, 0x2#4) := by decide
/-- VB6. -/
theorem test_cfgClr : after (exec .cfgClr { st with pend := 0b11#2 }) (fun s => (s.pend, s.seq, s.trace)) =
    some (0b00#2, 0x3#4, [.pendClearAll]) := by decide
/-- VB9. -/
theorem test_cfgEn : after (exec .cfgEn { st with ie := 0b10#2, pend := 0b01#2 })
    (fun s => (s.ie, s.gie, s.pend, s.seq)) = some (0b11#2, true, 0b01#2, 0x4#4) := by decide

/-! ## Dispatch -/

/-- VD3. -/
theorem test_idle_takes : after (exec .idle { q with pend := 0b10#2 }) (fun s => (s.seq, s.gie, s.pend, s.trace)) =
    some (0x5#4, false, 0b10#2, [.enter]) := by decide
/-- VD6: not enabled, the line pending is not the one enabled. -/
theorem test_idle_holds : after (exec .idle { q with ie := 0b10#2, pend := 0b01#2 }) (fun s => (s.seq, s.gie, s.trace)) =
    some (0x4#4, true, []) := by decide
/-- VD9. -/
theorem test_dispatch_priority : after (exec .dispatch { st with pend := 0b11#2, idx := 3#2, any := true })
    (fun s => (s.seq, s.pend, s.idx, s.any, s.trace)) =
    some (0x6#4, 0b10#2, 0#2, false, [.pendClear .buttonArray]) := by decide
/-- VD8. -/
theorem test_dispatch_encoder : after (exec .dispatch { st with pend := 0b10#2, idx := 3#2, any := true })
    (fun s => (s.seq, s.pend, s.idx, s.any, s.trace)) =
    some (0xA#4, 0b00#2, 3#2, true, [.pendClear .encoderA]) := by decide
/-- VD11. -/
theorem test_rotCall : after (exec .rotCall st) (fun s => (s.seq, s.trace)) = some (0xB#4, [.rotInvoke]) := by decide
/-- VD12. -/
theorem test_clrAll : after (exec .clrAll { st with pend := 0b11#2 }) (fun s => (s.seq, s.pend, s.trace)) =
    some (0xC#4, 0b00#2, [.pendClearAll]) := by decide
/-- VD15. -/
theorem test_ret : after (exec .ret { st with pend := 0b10#2 }) (fun s => (s.seq, s.gie, s.pend, s.trace)) =
    some (0x4#4, true, 0b10#2, [.ret]) := by decide

/-! ## Scan -/

/-- VC2. -/
theorem test_scanDrive : after (exec .scanDrive { st with out := 0x15#8, idx := 1#2 })
    (fun s => (s.out, s.srvis, s.seq, s.trace)) = some (0x25#8, 0x25#8, 0x7#4, [.srWrite 0x25#8]) := by decide
/-- VC4. -/
theorem test_scanDrive_last : after (exec .scanDrive { st with out := 0x45#8, idx := 3#2 }) State.out = some 0x85#8 := by
  decide
/-- VC9. -/
theorem test_scanSample_asserted : after (exec .scanSample { st with idx := 2#2, lvl := 0b01#2 })
    (fun s => (s.seq, s.idx, s.any, s.trace)) =
    some (0x6#4, 3#2, true, [.sample 2#2 true, .buttonReport 2#2]) := by decide
/-- VC10, with the other line high: only the sense line is read. -/
theorem test_scanSample_last : after (exec .scanSample { st with idx := 3#2, lvl := 0b10#2 })
    (fun s => (s.seq, s.idx, s.any, s.trace)) = some (0x8#4, 3#2, false, [.sample 3#2 false]) := by decide
/-- VC15. -/
theorem test_restore_pressed : after (exec .restore { st with out := 0x85#8, any := true, waitcnt := 7 })
    (fun s => (s.seq, s.out, s.srvis, s.waitcnt, s.trace)) =
    some (0x9#4, 0x05#8, 0x05#8, 7, [.srWrite 0x05#8]) := by decide
/-- VC14, with a finite bound, which clears `WAITCNT` (R120). -/
theorem test_restore_unpressed : after (exec .restore { st with out := 0x85#8, waitcnt := 7, params := ⟨0x5#4, some 9⟩ })
    (fun s => (s.seq, s.waitcnt)) = some (0xB#4, 0) := by decide

/-! ## Wait -/

/-- VW2. -/
theorem test_awaitRelease_asserted : after (exec .awaitRelease { st with seq := 0x9#4, lvl := 0b01#2 })
    (fun s => (s.seq, s.waitcnt, s.trace)) = some (0x9#4, 0, [.poll true]) := by decide
/-- The last step of VT2. -/
theorem test_awaitRelease_timeout :
    after (exec .awaitRelease { st with seq := 0x9#4, lvl := 0b01#2, waitcnt := 2, params := ⟨0x5#4, some 2⟩ })
      (fun s => (s.seq, s.waitcnt, s.trace)) = some (0xB#4, 2, [.poll true, .releaseTimeout]) := by decide

/-! ## Environment, RESET, reserved codes -/

/-- VE2. -/
theorem test_rise_encoder : after (exec (.rise .encoderA) st) (fun s => (s.lvl, s.pend, s.trace)) =
    some (0b10#2, 0b10#2, []) := by decide
/-- VE4: not enabled. -/
theorem test_rise_not_enabled : after (exec (.rise .buttonArray) { st with lvl := 0b01#2 }) (fun s => (s.lvl, s.pend)) =
    some (0b01#2, 0b00#2) := by decide
/-- VE5. -/
theorem test_fall_button : after (exec (.fall .buttonArray) { st with lvl := 0b01#2, pend := 0b01#2 })
    (fun s => (s.lvl, s.pend)) = some (0b00#2, 0b01#2) := by decide
/-- VE10. -/
theorem test_fall_encoder : after (exec (.fall .encoderA) { st with lvl := 0b10#2, pend := 0b10#2 })
    (fun s => (s.lvl, s.pend)) = some (0b00#2, 0b10#2) := by decide
/-- VX1. -/
theorem test_reset_event : after (step { st with seq := 0x9#4, lvl := 0b01#2, trace := [.enter], agenda := [.reset] })
    (fun s => (s.seq, s.gie, s.lvl, s.trace)) = some (0x0#4, false, 0b01#2, []) := by decide
/-- VX4. -/
theorem test_reserved_faults : step { st with seq := 0xD#4 } = .fault (.reservedSeq 0xD#4) := rfl
/-- R196: RESET leaves a faulted state. -/
theorem test_reset_leaves_reserved : after (step { st with seq := 0xE#4, agenda := [.reset] }) State.seq = some 0x0#4 := by
  decide

/-! ## Collaborators: R161 and spec/95_test_vectors.md section 6, in units of 2^-27 -/

/-- `CW CW CW` gives 0x3E99999A. -/
theorem test_counter_three_up :
    roundToSingle (roundToSingle (rotationStep + rotationStep) + rotationStep) = 0x99999A * 4 := by decide +kernel
/-- From 0.100000016 (0x3DCCCCCF) `CCW` leaves 1.4901161e-08 (0x32800000), and a further `CCW` goes negative
(0xBDCCCCCB). -/
theorem test_counter_residue : roundToSingle (0xCCCCCF - rotationStep) = 2 ∧
    roundToSingle (2 - rotationStep) = -0xCCCCCB := by decide +kernel
/-- binary32 rounding (G1): a tie goes to the even count. -/
theorem test_round_ties_to_even : roundToSingle (2 ^ 24 + 1) = 2 ^ 24 ∧ roundToSingle (2 ^ 24 + 3) = 2 ^ 24 + 4 := by
  decide +kernel
/-- R161: 1.0 and 0.0. -/
theorem test_readout : readoutText (2 ^ 27) = "1.0V".toList ∧ readoutText 0 = "0.0V".toList := by decide +kernel
/-- R161: 12.3, as the binary32 nearest to it, 0x4144CCCD. -/
theorem test_readout_12_3 : readoutText (0xC4CCCD * 2 ^ 7) = "12.3V".toList := by decide +kernel

/-! ## Witnesses: the hypotheses of each obligation are met together -/

theorem witness_StepRunsDecodedInstruction :
    (st.agenda = [] ∧ decode (.seq4 st.seq) = .ok .bootLoad) ∧
    (∃ s : State, s.agenda = .sequencer :: [] ∧ decode (.seq4 s.seq) = .ok .ret) ∧
    (∃ s : State, s.agenda = .environment 0b10#2 :: [.reset] ∧ decode (.evt2 0b10#2) = .ok (.rise .buttonArray)) :=
  ⟨⟨rfl, rfl⟩, ⟨{ st with seq := 0xC#4, agenda := [.sequencer] }, rfl, rfl⟩,
    ⟨{ st with agenda := [.environment 0b10#2, .reset] }, rfl, rfl⟩⟩
theorem witness_DecodeEncodeRoundTrip : decode (.seq4 0xC#4) = .ok .ret := rfl
theorem witness_ReservedCodesFaultAndAreNeverWritten :
    (∃ s : State, s.turn = .sequencer ∧ 0xD ≤ s.seq.toNat) ∧
    (∃ t, exec .ret st = .next t ∧ Instr.isSequencer .ret = true ∧ Instr.ret ≠ .idle) ∧
    (∃ t, exec .idle st = .next t) ∧ (∃ s t : State, s.turn = .reset ∧ step s = .next t) ∧
    (∃ t, st.seq.toNat ≤ 0xC ∧ step st = .next t) :=
  ⟨⟨{ st with seq := 0xF#4 }, by decide⟩, ⟨_, rfl, by decide⟩, ⟨_, rfl⟩,
    ⟨{ st with seq := 0xF#4, agenda := [.reset] }, _, by decide, rfl⟩, ⟨_, by decide, rfl⟩⟩
theorem witness_DisabledTurnHolds :
    turnEnabled q q.turn = false ∧
    (∃ s : State, s.turn = .environment 0b10#2 ∧ turnEnabled s s.turn = false) ∧
    (∃ s : State, s.turn = .environment 0b01#2 ∧ turnEnabled s s.turn = false) :=
  ⟨by decide, ⟨{ st with lvl := 0b01#2, agenda := [.environment 0b10#2] }, by decide⟩,
    ⟨{ st with agenda := [.environment 0b01#2] }, by decide⟩⟩
theorem witness_IdleTakesInterrupt :
    ∃ (s : State) (l : Line), s.seq = 0x4#4 ∧ s.gie = true ∧ s.ie.getLsbD l.index = true ∧ s.pend.getLsbD l.index = true :=
  ⟨{ q with pend := 0b10#2 }, .encoderA, by decide⟩
theorem witness_DispatchServicesOneLine :
    (∃ s : State, s.pend.getLsbD 0 = true) ∧ (∃ s : State, s.pend.getLsbD 0 = false ∧ s.pend.getLsbD 1 = true) ∧
    (∃ s : State, s.pend.getLsbD 0 = false ∧ s.pend.getLsbD 1 = false) :=
  ⟨⟨{ st with pend := 0b11#2 }, by decide⟩, ⟨{ st with pend := 0b10#2 }, by decide⟩, ⟨st, by decide⟩⟩
theorem witness_AwaitReleasePollsUntilLow : st.params.tRelease = none := rfl
theorem witness_AwaitReleaseBoundedVariant :
    (∃ s : State, s.params.tRelease = some 0 ∧ s.lvl.getLsbD 0 = false) ∧
    (∃ s : State, s.params.tRelease = some 0 ∧ s.lvl.getLsbD 0 = true ∧ s.waitcnt = 0) ∧
    (∃ s : State, s.params.tRelease = some 2 ∧ s.lvl.getLsbD 0 = true ∧ s.waitcnt ≠ 2) :=
  ⟨⟨{ st with params := ⟨0x5#4, some 0⟩ }, by decide⟩, ⟨{ st with params := ⟨0x5#4, some 0⟩, lvl := 0b01#2 }, by decide⟩,
    ⟨{ st with params := ⟨0x5#4, some 2⟩, lvl := 0b01#2, waitcnt := 1 }, by decide⟩⟩
theorem witness_RiseSetsLevelAndFlag :
    st.lvl.getLsbD 0 = false ∧ st.edge.getLsbD 0 = false ∧ st.lvl.getLsbD 1 = false ∧ st.edge.getLsbD 1 = false := by decide
theorem witness_FallLowersLevelOnly :
    ∃ s : State, s.lvl.getLsbD 0 = true ∧ s.edge.getLsbD 0 = false ∧ s.lvl.getLsbD 1 = true ∧ s.edge.getLsbD 1 = false :=
  ⟨{ st with lvl := 0b11#2 }, by decide⟩
theorem witness_NonRisingSenseLeavesFlagFree :
    ∃ s : State, s.edge.getLsbD Line.buttonArray.index = true ∧ s.lvl.getLsbD Line.buttonArray.index = false ∧
      s.edge.getLsbD Line.encoderA.index = true ∧ s.lvl.getLsbD Line.encoderA.index = true :=
  ⟨{ st with edge := 0b11#2, lvl := 0b10#2 }, by decide⟩
theorem witness_ResetEventFromAnyState :
    ∃ (s : State) (n : Nat), s.agenda = .reset :: [] ∧ s.params.tRelease = some n :=
  ⟨{ st with agenda := [.reset], params := ⟨0x5#4, some 3⟩ }, 3, rfl, rfl⟩
/-- For DataRegisterWriters, LedBitsPreserved and ControlRegisterWriters: an instruction of each clause answers. -/
theorem witness_RegisterWriters :
    (∃ t, exec .idle st = .next t) ∧ (∃ t, exec .scanDrive st = .next t) ∧ (∃ t, exec (.rise .encoderA) st = .next t) ∧
    (∃ t, exec .clrAll { st with ie := 0b11#2 } = .next t) :=
  ⟨⟨_, rfl⟩, ⟨_, rfl⟩, ⟨_, rfl⟩, ⟨_, rfl⟩⟩
theorem witness_PendingFlagWriters :
    (∃ t, exec (.rise .encoderA) st = .next t ∧ st.edge.getLsbD 1 = false ∧ st.pend.getLsbD 1 = false ∧
      t.pend.getLsbD 1 = true) ∧
    (∃ s t : State, exec .dispatch s = .next t ∧ s.edge.getLsbD 0 = false ∧ s.pend.getLsbD 0 = true ∧
      t.pend.getLsbD 0 = false) :=
  ⟨⟨_, rfl, by decide⟩, ⟨{ st with pend := 0b01#2 }, _, rfl, by decide⟩⟩
theorem witness_EnvironmentHasNoOtherPower :
    ∃ s t : State, s.agenda = .environment 0b11#2 :: [] ∧ step s = .next t :=
  ⟨{ st with agenda := [.environment 0b11#2] }, _, rfl, rfl⟩
theorem witness_TrapTakenOnlyInIdle : ∃ s t : State, step s = .next t ∧ t.trace = s.trace ++ [.enter] :=
  ⟨{ q with pend := 0b01#2 }, _, rfl, by decide⟩
theorem witness_ContextTransitions :
    (∃ t, contextOf st.seq = some .boot ∧ step st = .next t) ∧
    (∃ t, contextOf q.seq = some .main ∧ step q = .next t) ∧
    (∃ s t : State, contextOf s.seq = some .interrupt ∧ step s = .next t) :=
  ⟨⟨_, by decide, rfl⟩, ⟨_, by decide, rfl⟩, ⟨{ st with seq := 0xC#4 }, _, by decide, rfl⟩⟩
theorem witness_EncoderLevelInvisibleToSequencer : Instr.isSequencer .scanSample = true := rfl
theorem witness_EdgesDuringHandlerDropped :
    Instr.awaitRelease ∈ [Instr.scanDrive, .scanSample, .restore, .awaitRelease, .rotCall] := by decide
theorem witness_ParametersNeverChange : ∃ t, step st = .next t := ⟨_, rfl⟩
theorem witness_QuiescentExactlyWhenSequencerHolds : quiescent q = true ∧ turnEnabled q .sequencer = false ∧
    ∃ s : State, turnEnabled s .sequencer = false ∧ quiescent s = false :=
  ⟨by decide, by decide, { q with gie := false }, by decide⟩
/-- The quiescent state `Q`, after boot, meets both invariants (the first also for QuiescentExactlyWhenSequencerHolds). -/
theorem witness_invariants : RegistersSound { q with trace := [.srWrite 0x05#8, .pendClearAll] } ∧
    TraceSound { q with trace := [.srWrite 0x05#8, .pendClearAll] } :=
  ⟨⟨by decide, by decide, by decide, by decide, by decide, by decide, by decide, by decide, by decide, by decide⟩,
    .main, by decide, rfl⟩
/-- For StepKeepsRegistersSound, StepKeepsHistoryLawful, SoundStateStepsSafely and EnterAndReturnAlternate: a sound
state that steps. -/
theorem witness_StepKeeps : ∃ s t : State, RegistersSound s ∧ TraceSound s ∧ step s = .next t :=
  ⟨_, _, witness_invariants.1, witness_invariants.2, rfl⟩
theorem witness_InvocationShape :
    ∃ (s : State) (before inside after : List Event), TraceSound s ∧
      s.trace = before ++ [.enter] ++ inside ++ [.ret] ++ after ∧ Event.enter ∉ inside ∧ Event.ret ∉ inside ∧
      Event.pendClear .encoderA ∈ inside :=
  ⟨{ q with trace := [.srWrite 0x05#8, .pendClearAll, .enter, .pendClear .encoderA, .rotInvoke, .pendClearAll, .ret] },
    [.srWrite 0x05#8, .pendClearAll], [.pendClear .encoderA, .rotInvoke, .pendClearAll], [],
    ⟨.main, by decide, rfl⟩, rfl, by decide, by decide, by decide⟩
theorem witness_InvocationShape_scan :
    ∃ (s : State) (inside : List Event), TraceSound s ∧
      s.trace = [.srWrite 0x05#8, .pendClearAll] ++ [.enter] ++ inside ++ [.ret] ++ [] ∧
      Event.enter ∉ inside ∧ Event.ret ∉ inside ∧ Event.pendClear .buttonArray ∈ inside :=
  ⟨{ q with trace := [.srWrite 0x05#8, .pendClearAll] ++ [.enter] ++
      ([.pendClear .buttonArray] ++ scanTrace 0x5#4 false false true false ++ [.poll false, .pendClearAll]) ++ [.ret] ++ [] },
    _, ⟨.main, by decide, rfl⟩, rfl, by decide, by decide, by decide⟩
theorem witness_BootUnderAnyInterleaving :
    st.seq = 0x0#4 ∧ interleaves 4 [.sequencer, .environment 0b11#2, .sequencer, .sequencer, .sequencer] ∧
      ∃ before after : List Turn, [.sequencer, .environment 0b11#2, .sequencer, .sequencer, .sequencer] =
        before ++ Turn.sequencer :: after ∧ before.count .sequencer = 2 ∧ .environment 0b10#2 ∉ after ∧
        .environment 0b11#2 ∉ after :=
  ⟨rfl, ⟨by decide, by decide⟩, [.sequencer, .environment 0b11#2, .sequencer], [.sequencer], rfl, by decide, by decide,
    by decide⟩
theorem witness_ScanUnderAnyInterleaving :
    ∃ s : State, s.seq = 0x6#4 ∧ s.idx = 0#2 ∧ s.any = false ∧ s.out = 0#4 ++ s.params.leds ∧
      interleaves 9 (.environment 0b10#2 :: List.replicate 9 .sequencer) :=
  ⟨{ q with seq := 0x6#4 }, rfl, rfl, rfl, rfl, by decide, by decide⟩
theorem witness_EncoderInvocationTakesFiveTurns :
    ∃ s : State, s.seq = 0x4#4 ∧ s.gie = true ∧ s.ie = 0b11#2 ∧ s.pend = 0b10#2 ∧
      interleaves 3 [.environment 0b10#2, .sequencer, .sequencer, .sequencer] :=
  ⟨{ q with pend := 0b10#2 }, rfl, rfl, rfl, rfl, by decide, by decide⟩
theorem witness_UnpressedInvocationTakesThirteenTurns :
    ∃ (s : State) (ts before after : List Turn), s.seq = 0x4#4 ∧ s.gie = true ∧ s.ie = 0b11#2 ∧
      s.pend.getLsbD 0 = true ∧ s.lvl.getLsbD 0 = false ∧ s.out = s.params.defaultPattern ∧ interleaves 13 ts ∧
      .environment 0b10#2 ∉ ts ∧ ts = before ++ .sequencer :: after ∧ before.count .sequencer = 11 ∧ s.edge = 0b00#2 ∧
      .environment 0b11#2 ∉ after :=
  ⟨{ q with pend := 0b11#2 }, _, .environment 0b11#2 :: List.replicate 11 .sequencer, [.environment 0b01#2, .sequencer],
    by decide, by decide, by decide, by decide, by decide, by decide, ⟨by decide, by decide⟩, by decide, rfl, by decide,
    by decide, by decide⟩
theorem witness_HeldInvocationTakesFourteenPlusPolls :
    ∃ s : State, s.seq = 0x4#4 ∧ s.gie = true ∧ s.ie = 0b11#2 ∧ s.edge = 0b00#2 ∧ s.pend.getLsbD 0 = true ∧
      s.lvl.getLsbD 0 = true ∧ s.out = s.params.defaultPattern ∧ s.params.tRelease = none :=
  ⟨{ q with pend := 0b01#2, lvl := 0b01#2 }, by decide⟩
theorem witness_HeldButtonBlocksForever :
    ∃ s : State, s.seq = 0x9#4 ∧ s.params.tRelease = none ∧ s.lvl.getLsbD 0 = true ∧
      interleaves 2 [.sequencer, .environment 0b11#2, .sequencer] ∧
      Turn.environment 0b00#2 ∉ [Turn.sequencer, .environment 0b11#2, .sequencer] :=
  ⟨{ st with seq := 0x9#4, lvl := 0b01#2 }, rfl, rfl, by decide, ⟨by decide, by decide⟩, by decide⟩
theorem witness_BoundedWaitEnds :
    ∃ s : State, s.seq = 0x9#4 ∧ s.params.tRelease = some 2 ∧ s.waitcnt = 0 ∧ s.lvl.getLsbD 0 = true :=
  ⟨{ st with seq := 0x9#4, lvl := 0b01#2, params := ⟨0x5#4, some 2⟩ }, by decide⟩
theorem witness_EdgeBetweenClearAndEnableAccepted :
    ∃ s : State, s.seq = 0x3#4 ∧ s.edge = 0b00#2 ∧ s.lvl.getLsbD 0 = false ∧ s.lvl.getLsbD 1 = false ∧
      decode (.evt2 0b10#2) = .ok (.rise .buttonArray) ∧ decode (.evt2 0b11#2) = .ok (.rise .encoderA) :=
  ⟨{ st with seq := 0x3#4 }, rfl, rfl, by decide, by decide, rfl, rfl⟩
theorem witness_CoincidentEdgeDroppedOrKeptByOrder :
    ∃ s : State, s.seq = 0xA#4 ∧ s.ie = 0b11#2 ∧ s.edge = 0b00#2 ∧ s.lvl.getLsbD 0 = false :=
  ⟨{ q with seq := 0xA#4 }, by decide⟩
theorem witness_CompositesAreTheirOperations :
    st.seq = 0x0#4 ∧ (∃ s : State, s.seq = 0x6#4 ∧ s.idx = 0#2) ∧
    (∃ s : State, s.seq = 0x4#4 ∧ s.gie = true ∧ s.ie = 0b11#2 ∧ s.pend = 0b10#2) :=
  ⟨rfl, ⟨{ st with seq := 0x6#4 }, by decide⟩, ⟨{ q with pend := 0b10#2 }, by decide⟩⟩
theorem witness_ButtonCallbackWritesLabel : 4 ≤ 4 := by decide
theorem witness_RotationHandlerContract :
    (∃ (answers : Nat → RotationDirection) (c : Surroundings), answers c.queries = .clockwise) ∧
    (∃ (answers : Nat → RotationDirection) (c : Surroundings), answers c.queries = .counterClockwise ∧ 0 < c.counter) ∧
    (∃ (answers : Nat → RotationDirection) (c : Surroundings), answers c.queries = .counterClockwise ∧ c.counter ≤ 0) ∧
    (∃ (answers : Nat → RotationDirection) (c : Surroundings), answers c.queries = .none) :=
  ⟨⟨fun _ => .clockwise, .start, rfl⟩, ⟨fun _ => .counterClockwise, { Surroundings.start with counter := 2 }, by decide⟩,
    ⟨fun _ => .counterClockwise, .start, by decide⟩, ⟨fun _ => .none, .start, rfl⟩⟩
theorem witness_RendererRightAligns :
    (∃ c d : Surroundings, voltageRenderer c = .ok d) ∧
    (∃ (c : Surroundings) (text : List Char), voltageRenderer c = .error (.overlong text)) := by
  refine ⟨⟨.start, ?_⟩, ⟨{ Surroundings.start with counter := 2 ^ 80 }, readoutText (2 ^ 80), ?_⟩⟩
  · have h : readoutText Surroundings.start.counter = "0.0V".toList := test_readout.2
    unfold voltageRenderer
    simp only [h]
    by_cases hp : Config.padsReadout = true
    · exact ⟨_, by rw [if_neg (by decide), if_pos hp]⟩
    · exact ⟨_, by rw [if_neg (by decide), if_neg hp]⟩
  · unfold voltageRenderer
    exact if_pos (show fieldWidth < (readoutText (2 ^ 80)).length by decide +kernel)

end Sys2Proof.Tests
end

section
/-! SUPPORT. Whose turn a step takes, what it runs on each agent's turn, and the turns whose step is not enabled (O5, O9). -/

namespace Sys2Proof.Machine

variable {s : State}

/-! ## The turn, and the state whose turn is used up -/

theorem State.turn_of_agenda_nil (h : s.agenda = []) : s.turn = .sequencer := by
  simp [State.turn, h]

theorem State.turn_of_agenda_cons {t : Turn} {rest : List Turn} (h : s.agenda = t :: rest) : s.turn = t := by
  simp [State.turn, h]

theorem State.advance_of_agenda_nil (h : s.agenda = []) : s.advance = s := by
  cases s
  cases h
  rfl

theorem State.advance_of_agenda_cons {t : Turn} {rest : List Turn} (h : s.agenda = t :: rest) :
    s.advance = { s with agenda := rest } := by
  simp [State.advance, h]

/-! ## What a step runs on each agent's turn -/

/-- On the sequencer's turn a step runs the operation that `SEQ` selects (R79). -/
theorem step_of_turn_sequencer {i : Instr} (ht : s.turn = .sequencer) (hi : decode (.seq4 s.seq) = .ok i) :
    step s = exec i s.advance :=
  step_of_fetch s (.seq4 s.seq) i (by simp [State.fetch, ht]) hi

/-- On the environment's turn a step runs the event that its word names (R72). -/
theorem step_of_turn_environment {w : BitVec 2} {i : Instr} (ht : s.turn = .environment w)
    (hi : decode (.evt2 w) = .ok i) : step s = exec i s.advance :=
  step_of_fetch s (.evt2 w) i (by simp [State.fetch, ht]) hi

/-! ## Turns whose step is not enabled (R13) -/

/-- The three ways a turn's step is not enabled: IDLE with nothing to accept (R100), a RISE of a high line (R140) and a
FALL of a low one (R141). -/
theorem disabled_turn_cases {t : Turn} (h : turnEnabled s t = false) :
    (t = .sequencer ∧ s.seq = Code.idle ∧ acceptEnabled s = false) ∨
    (∃ w l, t = .environment w ∧ decodeEvt2 w = .rise l ∧ s.lineRead l = true) ∨
    (∃ w l, t = .environment w ∧ decodeEvt2 w = .fall l ∧ s.lineRead l = false) := by
  cases t with
  | sequencer =>
    by_cases hseq : s.seq = Code.idle
    · exact .inl ⟨rfl, hseq, by simpa [turnEnabled, hseq] using h⟩
    · simp [turnEnabled, hseq] at h
  | environment w =>
    obtain ⟨l, hw | hw⟩ := decodeEvt2_cases w
    · exact .inr (.inl ⟨w, l, rfl, hw, by simpa [turnEnabled, hw] using h⟩)
    · exact .inr (.inr ⟨w, l, rfl, hw, by simpa [turnEnabled, hw] using h⟩)
  | reset => simp [turnEnabled] at h

@[simp] theorem acceptEnabled_advance (s : State) : acceptEnabled s.advance = acceptEnabled s := rfl

@[simp] theorem State.lineRead_advance (s : State) (l : Line) : s.advance.lineRead l = s.lineRead l := rfl

theorem exec_idle_of_not_acceptEnabled (h : acceptEnabled s = false) : exec .idle s = .next s := by
  simp [exec, execIdle, h]

theorem exec_rise_of_high {l : Line} (h : s.lineRead l = true) : exec (.rise l) s = .next s := by
  simp [exec, execRise, h]

theorem exec_fall_of_low {l : Line} (h : s.lineRead l = false) : exec (.fall l) s = .next s := by
  simp [exec, execFall, h]

end Sys2Proof.Machine

/-! ## The obligations -/

open Sys2Proof Sys2Proof.Machine

/-- Settles O9: each of the three disabled turns runs an instruction that holds the state it is given, which is the
state whose turn is used up. -/
theorem disabledTurnHolds : Obligations.DisabledTurnHolds := by
  intro s h
  change step s = .next s.advance
  obtain ⟨ht, hseq, hno⟩ | ⟨w, l, ht, hw, hhigh⟩ | ⟨w, l, ht, hw, hlow⟩ := disabled_turn_cases h
  · rw [step_of_turn_sequencer ht (i := .idle) (by rw [hseq]; rfl)]
    exact exec_idle_of_not_acceptEnabled (by simpa using hno)
  · rw [step_of_turn_environment ht (congrArg Except.ok hw)]
    exact exec_rise_of_high (by simpa using hhigh)
  · rw [step_of_turn_environment ht (congrArg Except.ok hw)]
    exact exec_fall_of_low (by simpa using hlow)

/-- Settles O5: one rule for each agent's turn, with the used-up turn written out for each form of the agenda. -/
theorem stepRunsDecodedInstruction : Obligations.StepRunsDecodedInstruction := by
  refine ⟨fun s i ha hi => ?_, fun s i rest ha hi => ?_, fun s w i rest ha hi => ?_⟩
  · rw [step_of_turn_sequencer (State.turn_of_agenda_nil ha) hi, State.advance_of_agenda_nil ha]
  · rw [step_of_turn_sequencer (State.turn_of_agenda_cons ha) hi, State.advance_of_agenda_cons ha]
  · rw [step_of_turn_environment (State.turn_of_agenda_cons ha) hi, State.advance_of_agenda_cons ha]
end

section
/-! SUPPORT. What every instruction can do, said once (`Effect`), and what it leaves of each register: the rules that the
whole-machine statements about the registers are assembled from (O6, O28 to O32, O36, O38, O41). -/

namespace Sys2Proof.Machine

variable {s t : State} {i : Instr}

/-! ## The outcomes of the instructions -/

/-- What the sample of a position records: the sample, and a report when it is asserted (R118). -/
def sampleEvents (position : BitVec 2) (level : Bool) : List Event :=
  .sample position level :: if level then [.buttonReport position] else []

/-- `Effect s i t`: one constructor for each branch of each instruction, with the branch's condition and its next state.
`exec_eq_next_iff` says that these are exactly the answers of `exec`. -/
inductive Effect (s : State) : Instr → State → Prop
  | bootLoad : Effect s .bootLoad ((s.driveOut s.params.defaultPattern).goto Code.cfgEdge)
  | cfgEdge : Effect s .cfgEdge ({ s with edge := 0b00#2 }.goto Code.cfgClr)
  | cfgClr : Effect s .cfgClr (s.clearAllPend.goto Code.cfgEn)
  | cfgEn : Effect s .cfgEn ({ s with ie := 0b11#2, gie := true }.goto Code.idle)
  | idleTaken (enabled : acceptEnabled s = true) : Effect s .idle s.takeInterrupt
  | idleHeld (disabled : acceptEnabled s = false) : Effect s .idle s
  | dispatchButton (button : lineBit s.pend .buttonArray = true) :
      Effect s .dispatch ({ s.clearPend .buttonArray with idx := 0#2, any := false }.goto Code.scanDrive)
  | dispatchEncoder (noButton : lineBit s.pend .buttonArray = false) (encoder : lineBit s.pend .encoderA = true) :
      Effect s .dispatch ((s.clearPend .encoderA).goto Code.rotCall)
  | dispatchNone (noButton : lineBit s.pend .buttonArray = false) (noEncoder : lineBit s.pend .encoderA = false) :
      Effect s .dispatch (s.goto Code.clrAll)
  | scanDrive : Effect s .scanDrive ((s.driveOut (transient s.out s.idx)).goto Code.scanSample)
  | sampleLast (last : s.idx = lastPosition) :
      Effect s .scanSample ({ s with
        any := s.any || s.lineRead .buttonArray
        trace := s.trace ++ sampleEvents s.idx (s.lineRead .buttonArray) }.goto Code.restore)
  | sampleNext (more : s.idx ≠ lastPosition) :
      Effect s .scanSample ({ s with
        any := s.any || s.lineRead .buttonArray
        trace := s.trace ++ sampleEvents s.idx (s.lineRead .buttonArray)
        idx := nextPosition s.idx }.goto Code.scanDrive)
  | restorePressed (pressed : s.any = true) :
      Effect s .restore
        ({ s.driveOut (restored s.out) with waitcnt := waitcntIfPresent s 0 }.goto Code.awaitRelease)
  | restoreUnpressed (unpressed : s.any = false) :
      Effect s .restore ({ s.driveOut (restored s.out) with waitcnt := waitcntIfPresent s 0 }.goto Code.clrAll)
  | pollReleased (low : s.lineRead .buttonArray = false) :
      Effect s .awaitRelease ((s.emit (.poll false)).goto Code.clrAll)
  | pollExpired (high : s.lineRead .buttonArray = true) (expired : waitExpired s = true) :
      Effect s .awaitRelease (((s.emit (.poll true)).emit .releaseTimeout).goto Code.clrAll)
  | pollHeld (high : s.lineRead .buttonArray = true) (more : waitExpired s = false) :
      Effect s .awaitRelease
        ({ s.emit (.poll true) with waitcnt := waitcntIfPresent s (s.waitcnt + 1) }.goto Code.awaitRelease)
  | rotCall : Effect s .rotCall ((s.emit .rotInvoke).goto Code.clrAll)
  | clrAll : Effect s .clrAll (s.clearAllPend.goto Code.ret)
  | ret : Effect s .ret s.returnFromInterrupt
  | riseHeld {l : Line} (high : s.lineRead l = true) : Effect s (.rise l) s
  | riseRising {l : Line} (low : s.lineRead l = false) (rising : edgeIsRising s l = true) :
      Effect s (.rise l) { s with lvl := setLineBit s.lvl l true, pend := setLineBit s.pend l true }
  | riseFree {l : Line} (low : s.lineRead l = false) (falling : edgeIsRising s l = false) :
      Effect s (.rise l) { s with
        lvl := setLineBit s.lvl l true
        pend := setLineBit s.pend l (Config.edgePend s.draws)
        draws := s.draws + 1 }
  | fallHeld {l : Line} (low : s.lineRead l = false) : Effect s (.fall l) s
  | fallRising {l : Line} (high : s.lineRead l = true) (rising : edgeIsRising s l = true) :
      Effect s (.fall l) { s with lvl := setLineBit s.lvl l false }
  | fallFree {l : Line} (high : s.lineRead l = true) (falling : edgeIsRising s l = false) :
      Effect s (.fall l) { s with
        lvl := setLineBit s.lvl l false
        pend := setLineBit s.pend l (Config.edgePend s.draws)
        draws := s.draws + 1 }

/-- Each effect is the answer of its instruction: its condition decides the branch that `exec` takes. -/
theorem exec_of_effect (h : Effect s i t) : exec i s = .next t := by
  cases h with
  | idleTaken h | idleHeld h => simp only [exec, execIdle, h]; rfl
  | dispatchButton h => simp only [exec, execDispatch, h]; rfl
  | dispatchEncoder h h' | dispatchNone h h' => simp only [exec, execDispatch, h, h']; rfl
  | sampleLast h | sampleNext h => simp only [exec, execScanSample, State.recordSample_eq, h]; rfl
  | restorePressed h | restoreUnpressed h => simp only [exec, execRestore, h]; rfl
  | pollReleased h => simp only [exec, execAwaitRelease, h]; rfl
  | pollExpired h h' | pollHeld h h' => simp only [exec, execAwaitRelease, h, h']; rfl
  | riseHeld h => simp only [exec, execRise, h]; rfl
  | riseRising h h' | riseFree h h' => simp only [exec, execRise, State.levelChange, h, h']; rfl
  | fallHeld h => simp only [exec, execFall, h]; rfl
  | fallRising h h' | fallFree h h' => simp only [exec, execFall, State.levelChange, h, h']; rfl
  | _ => rfl

/-- The conditions of an instruction's effects leave no case out (R194). -/
theorem exists_effect (i : Instr) (s : State) : ∃ t, Effect s i t := by
  cases i with
  | bootLoad => exact ⟨_, .bootLoad⟩
  | cfgEdge => exact ⟨_, .cfgEdge⟩
  | cfgClr => exact ⟨_, .cfgClr⟩
  | cfgEn => exact ⟨_, .cfgEn⟩
  | idle =>
    cases h : acceptEnabled s
    · exact ⟨_, .idleHeld h⟩
    · exact ⟨_, .idleTaken h⟩
  | dispatch =>
    cases h : lineBit s.pend .buttonArray
    · cases h' : lineBit s.pend .encoderA
      · exact ⟨_, .dispatchNone h h'⟩
      · exact ⟨_, .dispatchEncoder h h'⟩
    · exact ⟨_, .dispatchButton h⟩
  | scanDrive => exact ⟨_, .scanDrive⟩
  | scanSample =>
    by_cases h : s.idx = lastPosition
    · exact ⟨_, .sampleLast h⟩
    · exact ⟨_, .sampleNext h⟩
  | restore =>
    cases h : s.any
    · exact ⟨_, .restoreUnpressed h⟩
    · exact ⟨_, .restorePressed h⟩
  | awaitRelease =>
    cases h : s.lineRead .buttonArray
    · exact ⟨_, .pollReleased h⟩
    · cases h' : waitExpired s
      · exact ⟨_, .pollHeld h h'⟩
      · exact ⟨_, .pollExpired h h'⟩
  | rotCall => exact ⟨_, .rotCall⟩
  | clrAll => exact ⟨_, .clrAll⟩
  | ret => exact ⟨_, .ret⟩
  | rise l =>
    cases h : s.lineRead l
    · cases h' : edgeIsRising s l
      · exact ⟨_, .riseFree h h'⟩
      · exact ⟨_, .riseRising h h'⟩
    · exact ⟨_, .riseHeld h⟩
  | fall l =>
    cases h : s.lineRead l
    · exact ⟨_, .fallHeld h⟩
    · cases h' : edgeIsRising s l
      · exact ⟨_, .fallFree h h'⟩
      · exact ⟨_, .fallRising h h'⟩

/-- Everything an instruction can do, and nothing else. -/
theorem exec_eq_next_iff : exec i s = .next t ↔ Effect s i t := by
  refine ⟨fun h => ?_, exec_of_effect⟩
  obtain ⟨u, hu⟩ := exists_effect i s
  obtain rfl : u = t := by simpa [exec_of_effect hu] using h
  exact hu

/-- An instruction has one effect. -/
theorem Effect.unique {u : State} (h : Effect s i t) (h' : Effect s i u) : t = u := by
  simpa [exec_of_effect h] using exec_of_effect h'

/-! ## The writers of each register -/

/-- Clearing a line's bit sets no bit. -/
theorem lineBit_of_lineBit_setLineBit_false {r : BitVec 2} {l k : Line} (h : lineBit (setLineBit r k false) l = true) :
    lineBit r l = true := by
  by_cases hk : l = k
  · subst hk
    rw [lineBit_setLineBit_same] at h
    cases h
  · rwa [lineBit_setLineBit_other _ _ _ _ hk] at h

/-- Assembling the transient pattern keeps the LED bits (R22, R73). -/
theorem extractLsb_transient (p : BitVec 8) (i : BitVec 2) :
    (transient p i).extractLsb 3 0 = p.extractLsb 3 0 := by
  revert p i; decide

theorem extractLsb_restored (p : BitVec 8) : (restored p).extractLsb 3 0 = p.extractLsb 3 0 := by
  revert p; decide

namespace Effect

/-- Only the three operations that send the pattern write `OUT` and `SRVIS` (R21, R34). -/
theorem out_srvis_eq (h : Effect s i t) (hb : i ≠ .bootLoad) (hd : i ≠ .scanDrive) (hr : i ≠ .restore) :
    t.out = s.out ∧ t.srvis = s.srvis := by
  cases h with
  | bootLoad => exact absurd rfl hb
  | scanDrive => exact absurd rfl hd
  | restorePressed | restoreUnpressed => exact absurd rfl hr
  | _ => exact ⟨rfl, rfl⟩

/-- Those three send the pattern they leave in `OUT` (R21). -/
theorem sends_out (h : Effect s i t) (hi : i = .bootLoad ∨ i = .scanDrive ∨ i = .restore) :
    t.srvis = t.out ∧ t.trace = s.trace ++ [.srWrite t.out] := by
  cases h with
  | bootLoad | scanDrive | restorePressed | restoreUnpressed => exact ⟨rfl, rfl⟩
  | _ => simp at hi

theorem idx_any_eq (h : Effect s i t) (hd : i ≠ .dispatch) (hs : i ≠ .scanSample) :
    t.idx = s.idx ∧ t.any = s.any := by
  cases h with
  | dispatchButton | dispatchEncoder | dispatchNone => exact absurd rfl hd
  | sampleLast | sampleNext => exact absurd rfl hs
  | _ => exact ⟨rfl, rfl⟩

theorem waitcnt_eq (h : Effect s i t) (hr : i ≠ .restore) (ha : i ≠ .awaitRelease) : t.waitcnt = s.waitcnt := by
  cases h with
  | restorePressed | restoreUnpressed => exact absurd rfl hr
  | pollReleased | pollExpired | pollHeld => exact absurd rfl ha
  | _ => rfl

/-- Without a bound on the wait no operation writes `WAITCNT` (R26). -/
theorem waitcnt_eq_of_unbounded (h : Effect s i t) (hn : s.params.tRelease = none) : t.waitcnt = s.waitcnt := by
  cases h with
  | restorePressed | restoreUnpressed | pollHeld => simp [waitcntIfPresent, hn]
  | _ => rfl

theorem ie_eq (h : Effect s i t) (hi : i ≠ .cfgEn) : t.ie = s.ie := by
  cases h with
  | cfgEn => exact absurd rfl hi
  | _ => rfl

theorem edge_eq (h : Effect s i t) (hi : i ≠ .cfgEdge) : t.edge = s.edge := by
  cases h with
  | cfgEdge => exact absurd rfl hi
  | _ => rfl

theorem gie_eq (h : Effect s i t) (hc : i ≠ .cfgEn) (hi : i ≠ .idle) (hr : i ≠ .ret) : t.gie = s.gie := by
  cases h with
  | cfgEn => exact absurd rfl hc
  | idleTaken | idleHeld => exact absurd rfl hi
  | ret => exact absurd rfl hr
  | _ => rfl

theorem lvl_draws_eq (h : Effect s i t) (hi : i.isSequencer = true) : t.lvl = s.lvl ∧ t.draws = s.draws := by
  cases h with
  | riseHeld | riseRising | riseFree | fallHeld | fallRising | fallFree => simp [Instr.isSequencer] at hi
  | _ => exact ⟨rfl, rfl⟩

theorem params_agenda_eq (h : Effect s i t) : t.params = s.params ∧ t.agenda = s.agenda := by
  cases h <;> exact ⟨rfl, rfl⟩

/-- An event writes the level and the flag of a line and, of the model's own fields, the count of draws (R144). -/
theorem event_frame (h : Effect s i t) (hi : i.isSequencer = false) :
    t = { s with lvl := t.lvl, pend := t.pend, draws := t.draws } := by
  cases h with
  | riseHeld | riseRising | riseFree | fallHeld | fallRising | fallFree => rfl
  | _ => simp [Instr.isSequencer] at hi

/-- An event of line `l` leaves the level and the flag of the other line (R144). -/
theorem event_other_line {l k : Line} (h : Effect s i t) (hi : i = .rise l ∨ i = .fall l) (hk : k ≠ l) :
    lineBit t.lvl k = lineBit s.lvl k ∧ lineBit t.pend k = lineBit s.pend k := by
  have other (r : BitVec 2) (b : Bool) := lineBit_setLineBit_other r l k b hk
  obtain rfl | rfl := hi
  · cases h with
    | riseHeld => exact ⟨rfl, rfl⟩
    | riseRising | riseFree => exact ⟨other _ _, other _ _⟩
  · cases h with
    | fallHeld => exact ⟨rfl, rfl⟩
    | fallRising => exact ⟨other _ _, rfl⟩
    | fallFree => exact ⟨other _ _, other _ _⟩

/-- Apart from the three operations that clear flags only a change of level writes `PEND` (R29, R181): with rising sense
of `l` a RISE of `l` sets its flag, and every other instruction leaves it. -/
theorem lineBit_pend_eq {l : Line} (h : Effect s i t) (hl : edgeIsRising s l = true) (hd : i ≠ .dispatch)
    (hc : i ≠ .cfgClr) (ha : i ≠ .clrAll) :
    lineBit t.pend l = lineBit s.pend l ∨ i = .rise l ∧ lineBit t.pend l = true := by
  cases h with
  | dispatchButton | dispatchEncoder | dispatchNone => exact absurd rfl hd
  | cfgClr => exact absurd rfl hc
  | clrAll => exact absurd rfl ha
  | @riseRising k =>
    by_cases hk : l = k
    · subst hk
      exact .inr ⟨rfl, lineBit_setLineBit_same _ _ _⟩
    · exact .inl (lineBit_setLineBit_other _ _ _ _ hk)
  | riseFree _ falling | fallFree _ falling =>
    refine .inl (lineBit_setLineBit_other _ _ _ _ fun hk => ?_)
    rw [hk, falling] at hl
    cases hl
  | _ => exact .inl rfl

/-- None of the three operations that clear flags sets one. -/
theorem lineBit_pend_of_clears {l : Line} (h : Effect s i t) (hi : i = .dispatch ∨ i = .cfgClr ∨ i = .clrAll)
    (hl : lineBit t.pend l = true) : lineBit s.pend l = true := by
  cases h with
  | dispatchNone => exact hl
  | dispatchButton | dispatchEncoder => exact lineBit_of_lineBit_setLineBit_false hl
  | cfgClr | clrAll => simp [lineBit] at hl
  | _ => simp at hi

/-! ## `TRACE` and `SRVIS` are not read (R34, R35) -/

/-- An instruction appends the same events to every history and does the same else. -/
theorem trace_unread (h : Effect s i t) :
    ∃ es, ∀ past, Effect { s with trace := past } i { t with trace := past ++ es } := by
  cases h with
  | bootLoad => exact ⟨[.srWrite s.params.defaultPattern], fun _ => .bootLoad⟩
  | cfgClr => exact ⟨[.pendClearAll], fun _ => .cfgClr⟩
  | idleTaken h => exact ⟨[.enter], fun _ => .idleTaken h⟩
  | dispatchButton h => exact ⟨[.pendClear .buttonArray], fun _ => .dispatchButton h⟩
  | dispatchEncoder h h' => exact ⟨[.pendClear .encoderA], fun _ => .dispatchEncoder h h'⟩
  | scanDrive => exact ⟨[.srWrite (transient s.out s.idx)], fun _ => .scanDrive⟩
  | sampleLast h => exact ⟨sampleEvents s.idx (s.lineRead .buttonArray), fun _ => .sampleLast h⟩
  | sampleNext h => exact ⟨sampleEvents s.idx (s.lineRead .buttonArray), fun _ => .sampleNext h⟩
  | restorePressed h => exact ⟨[.srWrite (restored s.out)], fun _ => .restorePressed h⟩
  | restoreUnpressed h => exact ⟨[.srWrite (restored s.out)], fun _ => .restoreUnpressed h⟩
  | pollReleased h => exact ⟨[.poll false], fun _ => .pollReleased h⟩
  | pollExpired h h' =>
    refine ⟨[.poll true, .releaseTimeout], fun past => ?_⟩
    rw [List.append_cons]
    exact .pollExpired h h'
  | pollHeld h h' => exact ⟨[.poll true], fun _ => .pollHeld h h'⟩
  | rotCall => exact ⟨[.rotInvoke], fun _ => .rotCall⟩
  | clrAll => exact ⟨[.pendClearAll], fun _ => .clrAll⟩
  | ret => exact ⟨[.ret], fun _ => .ret⟩
  | cfgEdge | cfgEn | idleHeld | dispatchNone | riseHeld | riseRising | riseFree | fallHeld | fallRising | fallFree =>
    refine ⟨[], fun past => ?_⟩
    rw [List.append_nil]
    constructor <;> assumption

/-- An instruction replaces the byte in the shift register by one that does not depend on it, or leaves it, and does
the same else. -/
theorem srvis_unread (h : Effect s i t) (v : BitVec 8) :
    Effect { s with srvis := v } i { t with srvis :=
      if i = .bootLoad ∨ i = .scanDrive ∨ i = .restore then t.srvis else v } := by
  cases h <;> constructor <;> assumption

end Effect

/-! ## Steps and placed words -/

/-- An `EVT2` word is an event of the line that its bit 0 names (R72). -/
theorem decodeEvt2_line (w : BitVec 2) :
    decodeEvt2 w = .rise (Line.ofBit (w.getLsbD 0)) ∨ decodeEvt2 w = .fall (Line.ofBit (w.getLsbD 0)) := by
  unfold decodeEvt2
  split
  · exact .inl rfl
  · exact .inr rfl

theorem isSequencer_decodeEvt2 (w : BitVec 2) : (decodeEvt2 w).isSequencer = false := by
  obtain ⟨l, h | h⟩ := decodeEvt2_cases w <;> rw [h] <;> rfl

/-- Everything a step can do, by the agent whose turn it is (R9). -/
theorem step_agent_cases (h : step s = .next t) :
    (s.turn = .reset ∧ t = s.advance.takeReset) ∨
    (∃ i, s.turn = .sequencer ∧ encode i = .seq4 s.seq ∧ Effect s.advance i t) ∨
    (∃ w, s.turn = .environment w ∧ Effect s.advance (decodeEvt2 w) t) := by
  obtain hreset | ⟨w, i, hw, hi, he⟩ := step_cases s t h
  · exact .inl hreset
  right
  have he := exec_eq_next_iff.mp he
  cases ht : s.turn with
  | sequencer =>
    obtain rfl : .seq4 s.seq = w := by simpa [State.fetch, ht] using hw
    exact .inl ⟨i, rfl, (encode_of_decodeSeq4 s.seq i hi).1, he⟩
  | environment word =>
    obtain rfl : .evt2 word = w := by simpa [State.fetch, ht] using hw
    obtain rfl : decodeEvt2 word = i := by simpa [decode] using hi
    exact .inr ⟨word, rfl, he⟩
  | reset => simp [State.fetch, ht] at hw

theorem decode_encode (i : Instr) : decode (encode i) = .ok i := by
  cases i with
  | rise l | fall l => cases l <;> rfl
  | _ => rfl

/-- The table's number of an instruction's word, at the width of its row, names that word (R70). -/
theorem tableWord_encode (i : Instr) : tableWord i.row.width (encode i).toNat = some (encode i) := by
  cases i with
  | rise l | fall l => cases l <;> rfl
  | _ => rfl

theorem State.fetch_place (s : State) (w : CodeWord) : (s.place w).fetch = some w := by
  cases w <;> rfl

/-- The turn of a placed instruction used up, `SEQ` is what is left of the placing (assumption 3). -/
theorem State.advance_place_encode (s : State) (i : Instr) : (s.place (encode i)).advance =
    if i.isSequencer then { s with seq := BitVec.ofNat 4 (encode i).toNat } else s := by
  cases i <;> rfl

end Sys2Proof.Machine

/-! ## The obligations -/

open Sys2Proof Sys2Proof.Machine

/-- Settles O6: the placed word is the one fetched, and it decodes to the instruction it encodes. -/
theorem placedWordRunsNext : Obligations.PlacedWordRunsNext := by
  intro s i
  have hplace : s.withFetchWord i.row.width (encode i).toNat = s.place (encode i) := by
    simp [State.withFetchWord, tableWord_encode]
  rw [hplace, step_of_fetch _ _ i (State.fetch_place s _) (decode_encode i), State.advance_place_encode]

/-- Settles O28: the writers of the data registers, register by register. -/
theorem dataRegisterWriters : Obligations.DataRegisterWriters := by
  intro i s t h
  have e := exec_eq_next_iff.mp h
  exact ⟨e.out_srvis_eq, e.sends_out, e.idx_any_eq, e.waitcnt_eq, e.waitcnt_eq_of_unbounded⟩

/-- Settles O29: of the operations that write `OUT`, the transient and the restored pattern keep its LED bits. -/
theorem ledBitsPreserved : Obligations.LedBitsPreserved := by
  intro i s t hb h
  have e := exec_eq_next_iff.mp h
  by_cases hd : i = .scanDrive
  · subst hd
    cases e
    exact extractLsb_transient _ _
  by_cases hr : i = .restore
  · subst hr
    cases e <;> exact extractLsb_restored _
  rw [(e.out_srvis_eq hb hd hr).1]

/-- Settles O30: the writers of the control registers, register by register; what an event leaves is its frame. -/
theorem controlRegisterWriters : Obligations.ControlRegisterWriters := by
  intro i s t h
  have e := exec_eq_next_iff.mp h
  refine ⟨e.ie_eq, fun hie => ?_, e.edge_eq, e.gie_eq, e.lvl_draws_eq, fun hi => ?_, e.params_agenda_eq⟩
  · by_cases hc : i = .cfgEn
    · subst hc
      cases e
      rfl
    · rw [e.ie_eq hc, hie]
  · rw [e.event_frame hi]
    exact ⟨rfl, rfl, rfl⟩

/-- Settles O31: the three operations that clear flags set none, and the other instructions leave the flag of `l` or are
RISE `l`, which sets it. -/
theorem pendingFlagWriters : Obligations.PendingFlagWriters := by
  intro i s t l h hl
  have hrising : edgeIsRising s l = true := by simpa [edgeIsRising, lineBit] using hl
  change (lineBit s.pend l = false → lineBit t.pend l = true → i = .rise l) ∧
    (lineBit s.pend l = true → lineBit t.pend l = false → i = .dispatch ∨ i = .cfgClr ∨ i = .clrAll)
  have e := exec_eq_next_iff.mp h
  by_cases hi : i = .dispatch ∨ i = .cfgClr ∨ i = .clrAll
  · refine ⟨fun hs ht => ?_, fun _ _ => hi⟩
    rw [e.lineBit_pend_of_clears hi ht] at hs
    cases hs
  · obtain ⟨hd, hc, ha⟩ : i ≠ .dispatch ∧ i ≠ .cfgClr ∧ i ≠ .clrAll := by simpa using hi
    obtain hsame | ⟨hrise, hset⟩ := e.lineBit_pend_eq hrising hd hc ha
    · simp +contextual [hsame]
    · simp [hrise, hset]

/-- Settles O32: the environment's turn runs an event of the line that its word names. -/
theorem environmentHasNoOtherPower : Obligations.EnvironmentHasNoOtherPower := by
  intro s t w rest ha h
  have ht := State.turn_of_agenda_cons ha
  obtain ⟨hr, -⟩ | ⟨i, hseq, -, -⟩ | ⟨v, hv, e⟩ := step_agent_cases h
  · simp [ht] at hr
  · simp [ht] at hseq
  obtain rfl : w = v := by simpa [ht] using hv
  rw [State.advance_of_agenda_cons ha] at e
  have hline := decodeEvt2_line w
  refine ⟨e.event_frame (isSequencer_decodeEvt2 w), fun hw => ?_, fun hw => ?_⟩ <;> rw [hw] at hline
  · exact e.event_other_line (k := .encoderA) hline (by decide)
  · exact e.event_other_line (k := .buttonArray) hline (by decide)

/-- Settles O36: the same effect with another history, and with another byte in the shift register. -/
theorem historyAndShiftRegisterUnread : Obligations.HistoryAndShiftRegisterUnread := by
  refine ⟨fun i s past => ?_, fun i s v => ?_⟩ <;> obtain ⟨t, e⟩ := exists_effect i s <;> rw [exec_of_effect e]
  · obtain ⟨es, hes⟩ := e.trace_unread
    have htrace : t.trace = s.trace ++ es := congrArg State.trace (e.unique (hes s.trace))
    rw [exec_of_effect (hes _), mapNext, htrace, List.append_assoc]
  · exact exec_of_effect (e.srvis_unread v)

/-- Settles O38: no instruction and no RESET writes a parameter. -/
theorem parametersNeverChange : Obligations.ParametersNeverChange := by
  intro s t h
  obtain ⟨-, rfl⟩ | ⟨_, -, -, e⟩ | ⟨_, -, e⟩ := step_agent_cases h
  · rfl
  · exact e.params_agenda_eq.1
  · exact e.params_agenda_eq.1
end

section
/-! SUPPORT. The registers stay sound: each clause of `RegistersSound` over the sequencer's operations, then the events of
the environment and RESET (O41). -/

/-! ## The codes as numerals -/

namespace Sys2Proof.Code
@[simp] theorem bootLoad_eq : bootLoad = 0x0#4 := rfl
@[simp] theorem cfgEdge_eq : cfgEdge = 0x1#4 := rfl
@[simp] theorem cfgClr_eq : cfgClr = 0x2#4 := rfl
@[simp] theorem cfgEn_eq : cfgEn = 0x3#4 := rfl
@[simp] theorem idle_eq : idle = 0x4#4 := rfl
@[simp] theorem dispatch_eq : dispatch = 0x5#4 := rfl
@[simp] theorem scanDrive_eq : scanDrive = 0x6#4 := rfl
@[simp] theorem scanSample_eq : scanSample = 0x7#4 := rfl
@[simp] theorem restore_eq : restore = 0x8#4 := rfl
@[simp] theorem awaitRelease_eq : awaitRelease = 0x9#4 := rfl
@[simp] theorem rotCall_eq : rotCall = 0xA#4 := rfl
@[simp] theorem clrAll_eq : clrAll = 0xB#4 := rfl
@[simp] theorem ret_eq : ret = 0xC#4 := rfl
end Sys2Proof.Code

namespace Sys2Proof.Machine

variable {s t : State} {i : Instr}

/-! ## The flags and the select bits -/

theorem ne_zero_iff_exists_lineBit (r : BitVec 2) : r ≠ 0b00#2 ↔ ∃ l, lineBit r l = true := by
  refine ⟨fun hr => ?_, ?_⟩
  · by_contra hno
    refine hr (eq_of_lineBits _ _ fun l => ?_)
    rw [eq_false_of_ne_true fun hl => hno ⟨l, hl⟩]
    cases l <;> rfl
  · rintro ⟨l, hl⟩ rfl
    cases l <;> simp at hl

/-- An interrupt is accepted only where a flag is set (R100). -/
theorem pend_ne_zero_of_acceptEnabled (h : acceptEnabled s = true) : s.pend ≠ 0b00#2 := by
  refine (ne_zero_iff_exists_lineBit _).mpr ?_
  obtain ⟨-, ⟨-, hb⟩ | ⟨-, he⟩⟩ : s.gie = true ∧ (lineBit s.ie .buttonArray = true ∧ lineBit s.pend .buttonArray = true ∨
      lineBit s.ie .encoderA = true ∧ lineBit s.pend .encoderA = true) := by
    simpa [acceptEnabled, someEnabledPending] using h
  · exact ⟨_, hb⟩
  · exact ⟨_, he⟩

/-- The next position is driven over the select bit of the position before (R23). -/
theorem expectedSelect_nextPosition (position : BitVec 2) (h : position ≠ lastPosition) :
    expectedSelect Code.scanDrive (nextPosition position) = expectedSelect Code.scanSample position := by
  revert position; decide

/-! ## The clauses over an operation of the sequencer

In each proof the code that selects the operation stands in for `SEQ` in the clause before it (`hold`). -/

namespace RegistersSound

theorem seqDefined_of_operation (hs : RegistersSound s) (e : Effect s i t) : t.seq.toNat ≤ 0xC := by
  cases e with
  | idleHeld | riseHeld | riseRising | riseFree | fallHeld | fallRising | fallFree => exact hs.seqDefined
  | _ => simp

theorem outPattern_of_operation (hs : RegistersSound s) (hi : encode i = .seq4 s.seq) (e : Effect s i t) :
    t.seq ≠ 0x0#4 → t.out = expectedSelect t.seq t.idx ++ t.params.leds := by
  have hold := hs.outPattern
  cases e <;> simp only [encode, CodeWord.seq4.injEq, reduceCtorEq] at hi
  case idleHeld => exact hold
  all_goals
    rw [← hi] at hold
    intro hloaded
  case bootLoad => rfl
  case scanDrive =>
    change transient s.out s.idx = _
    rw [hold (by decide), transient_append]
    rfl
  case sampleLast last => exact (hold (by decide)).trans (by rw [last]; rfl)
  case sampleNext more => exact (hold (by decide)).trans (by rw [← expectedSelect_nextPosition _ more]; rfl)
  case restorePressed | restoreUnpressed =>
    change restored s.out = _
    rw [hold (by decide), restored_append]
    rfl
  all_goals exact hold (by decide)

theorem shown_of_operation (hs : RegistersSound s) (hi : encode i = .seq4 s.seq) (e : Effect s i t) :
    t.seq ≠ 0x0#4 → t.srvis = t.out := by
  have hold := hs.shown
  cases e <;> simp only [encode, CodeWord.seq4.injEq, reduceCtorEq] at hi
  case idleHeld => exact hold
  case bootLoad | scanDrive | restorePressed | restoreUnpressed => exact fun _ => rfl
  all_goals
    rw [← hi] at hold
    exact fun _ => hold (by decide)

theorem edgeRising_of_operation (hs : RegistersSound s) (hi : encode i = .seq4 s.seq) (e : Effect s i t) :
    0x2 ≤ t.seq.toNat → t.edge = 0b00#2 := by
  have hold := hs.edgeRising
  cases e <;> simp only [encode, CodeWord.seq4.injEq, reduceCtorEq] at hi
  case bootLoad => simp
  case cfgEdge => exact fun _ => rfl
  all_goals
    rw [← hi] at hold
    exact fun _ => hold (by decide)

theorem linesEnabled_of_operation (hs : RegistersSound s) (hi : encode i = .seq4 s.seq) (e : Effect s i t) :
    0x4 ≤ t.seq.toNat → t.ie = 0b11#2 := by
  have hold := hs.linesEnabled
  cases e <;> simp only [encode, CodeWord.seq4.injEq, reduceCtorEq] at hi
  case bootLoad | cfgEdge | cfgClr => simp
  case cfgEn => exact fun _ => rfl
  all_goals
    rw [← hi] at hold
    exact fun _ => hold (by decide)

theorem globalEnable_of_operation (hs : RegistersSound s) (hi : encode i = .seq4 s.seq) (e : Effect s i t) :
    t.gie = true ↔ t.seq = 0x4#4 := by
  have hold := hs.globalEnable
  cases e <;> simp only [encode, CodeWord.seq4.injEq, reduceCtorEq] at hi
  case idleHeld => exact hold
  case cfgEn | idleTaken | ret => simp
  all_goals
    rw [← hi] at hold
    simpa using hold

theorem dispatchPending_of_operation (hs : RegistersSound s) (hi : encode i = .seq4 s.seq) (e : Effect s i t) :
    t.seq = 0x5#4 → t.pend ≠ 0b00#2 := by
  cases e <;> simp only [encode, CodeWord.seq4.injEq, reduceCtorEq] at hi
  case idleTaken enabled => exact fun _ => pend_ne_zero_of_acceptEnabled (s := s) enabled
  case idleHeld => exact hs.dispatchPending
  all_goals simp

theorem restoreAfterLast_of_operation (hs : RegistersSound s) (hi : encode i = .seq4 s.seq) (e : Effect s i t) :
    t.seq = 0x8#4 → t.idx = 3#2 := by
  cases e <;> simp only [encode, CodeWord.seq4.injEq, reduceCtorEq] at hi
  case sampleLast last => exact fun _ => last
  case idleHeld => exact hs.restoreAfterLast
  all_goals simp

theorem waitAfterPress_of_operation (hs : RegistersSound s) (hi : encode i = .seq4 s.seq) (e : Effect s i t) :
    t.seq = 0x9#4 → t.any = true := by
  cases e <;> simp only [encode, CodeWord.seq4.injEq, reduceCtorEq] at hi
  case restorePressed pressed => exact fun _ => pressed
  case pollHeld => exact fun _ => hs.waitAfterPress hi.symm
  case idleHeld => exact hs.waitAfterPress
  all_goals simp

/-- RESTORE starts the count at 0, and a poll counts on only below the bound (R120, R132). -/
theorem waitBounded_of_operation (hs : RegistersSound s) (hi : encode i = .seq4 s.seq) (e : Effect s i t) :
    ∀ n, t.params.tRelease = some n → t.seq = 0x9#4 → t.waitcnt ≤ n := by
  cases e <;> simp only [encode, CodeWord.seq4.injEq, reduceCtorEq] at hi
  case restorePressed =>
    intro n (hn : s.params.tRelease = some n) _
    simp [waitcntIfPresent, hn]
  case pollHeld more =>
    intro n (hn : s.params.tRelease = some n) _
    have hle : s.waitcnt ≤ n := hs.waitBounded n hn hi.symm
    have hne : s.waitcnt ≠ n := by simpa [waitExpired, hn] using more
    simp only [State.goto_waitcnt, waitcntIfPresent, hn]
    omega
  case idleHeld => exact hs.waitBounded
  all_goals simp

/-- The sequencer's operations keep the registers sound. -/
theorem of_operation (hs : RegistersSound s) (hi : encode i = .seq4 s.seq) (e : Effect s i t) : RegistersSound t where
  seqDefined := hs.seqDefined_of_operation e
  outPattern := hs.outPattern_of_operation hi e
  shown := hs.shown_of_operation hi e
  edgeRising := hs.edgeRising_of_operation hi e
  linesEnabled := hs.linesEnabled_of_operation hi e
  globalEnable := hs.globalEnable_of_operation hi e
  dispatchPending := hs.dispatchPending_of_operation hi e
  restoreAfterLast := hs.restoreAfterLast_of_operation hi e
  waitAfterPress := hs.waitAfterPress_of_operation hi e
  waitBounded := hs.waitBounded_of_operation hi e

/-! ## The events and RESET -/

/-- The clauses do not speak of the levels, the agenda and the draws, and of the flags only in DISPATCH. -/
theorem with_flags (hs : RegistersSound s) {levels flags : BitVec 2} {turns : List Turn} {count : Nat}
    (hflags : s.seq = 0x5#4 → flags ≠ 0b00#2) :
    RegistersSound { s with lvl := levels, pend := flags, agenda := turns, draws := count } where
  seqDefined := hs.seqDefined
  outPattern := hs.outPattern
  shown := hs.shown
  edgeRising := hs.edgeRising
  linesEnabled := hs.linesEnabled
  globalEnable := hs.globalEnable
  dispatchPending := hflags
  restoreAfterLast := hs.restoreAfterLast
  waitAfterPress := hs.waitAfterPress
  waitBounded := hs.waitBounded

theorem advance (hs : RegistersSound s) : RegistersSound s.advance := hs.with_flags hs.dispatchPending

/-- The events keep the registers sound: in DISPATCH both senses are rising, so an event takes no flag away. -/
theorem of_event (hs : RegistersSound s) (hi : i.isSequencer = false) (e : Effect s i t) : RegistersSound t := by
  rw [e.event_frame hi]
  refine hs.with_flags fun hseq => ?_
  obtain ⟨l, hl⟩ := (ne_zero_iff_exists_lineBit _).mp (hs.dispatchPending hseq)
  have hrising : edgeIsRising s l = true := by
    cases l <;> simp [edgeIsRising, hs.edgeRising (by simp [hseq])]
  refine (ne_zero_iff_exists_lineBit _).mpr ⟨l, ?_⟩
  obtain hsame | ⟨-, hset⟩ := e.lineBit_pend_eq hrising (by rintro rfl; cases hi) (by rintro rfl; cases hi)
    (by rintro rfl; cases hi)
  · rw [hsame, hl]
  · exact hset

/-- At BOOT_LOAD every clause is about a later state, but for the closed global enable (R143). -/
theorem of_reset (s : State) : RegistersSound s.takeReset := by
  constructor <;> simp

end RegistersSound
end Sys2Proof.Machine

open Sys2Proof Sys2Proof.Machine

/-- Settles O41: RESET makes the registers sound, and an operation or an event keeps them so. -/
theorem stepKeepsRegistersSound : Obligations.StepKeepsRegistersSound := by
  intro s t hs h
  obtain ⟨-, rfl⟩ | ⟨i, -, hi, e⟩ | ⟨w, -, e⟩ := step_agent_cases h
  · exact .of_reset _
  · exact hs.advance.of_operation hi e
  · exact hs.advance.of_event (isSequencer_decodeEvt2 w) e
end

section
/-! SUPPORT. The sequencer reads the levels through that of `BUTTON_ARRAY` alone (O35). -/

namespace Sys2Proof.Machine

variable {s t : State} {i : Instr}

/-- Of the levels a sequencer operation reads at most that of `BUTTON_ARRAY` (R53): on levels that agree there it does
the same, and leaves them. -/
theorem Effect.levels_unread (h : Effect s i t) (hi : i.isSequencer = true) {levels : BitVec 2}
    (hread : lineBit levels .buttonArray = s.lineRead .buttonArray) :
    Effect { s with lvl := levels } i { t with lvl := levels } := by
  cases h with
  | sampleLast last =>
    rw [← hread]
    exact .sampleLast last
  | sampleNext more =>
    rw [← hread]
    exact .sampleNext more
  | pollReleased low => exact .pollReleased (hread.trans low)
  | pollExpired high expired => exact .pollExpired (hread.trans high) expired
  | pollHeld high more => exact .pollHeld (hread.trans high) more
  | riseHeld | riseRising | riseFree | fallHeld | fallRising | fallFree => cases hi
  | _ => constructor <;> assumption

end Sys2Proof.Machine

open Sys2Proof Sys2Proof.Machine

/-- Settles O35: the changed levels agree with the old ones at `BUTTON_ARRAY`, and the operation leaves both. -/
theorem encoderLevelInvisibleToSequencer : Obligations.EncoderLevelInvisibleToSequencer := by
  intro i s b hi
  obtain ⟨t, e⟩ := exists_effect i s
  have hbutton := lineBit_setLineBit_other s.lvl .encoderA .buttonArray b (by decide)
  rw [exec_of_effect e, exec_of_effect (e.levels_unread hi hbutton), mapNext, (e.lvl_draws_eq hi).1]
end

section
/-! SUPPORT. Decoding answers exactly on the well-formed words and undoes encoding (O2 to O4); a step faults exactly at a
reserved code, which nothing writes (O7, O43). -/

namespace Sys2Proof.Machine

variable {s t : State} {i : Instr}

/-! ## Words -/

/-- A `SEQ4` code is one of the thirteen defined ones and decodes, or one of the three reserved ones and does not
(R71, R80). -/
theorem decodeSeq4_cases (c : BitVec 4) :
    (c.toNat ≤ 0xC ∧ ∃ i, decodeSeq4 c = .ok i) ∨ (0xD ≤ c.toNat ∧ decodeSeq4 c = .error (.reservedSeq c)) := by
  unfold decodeSeq4
  split
  case h_14 => exact .inr ⟨by simp only [imp_false] at *; omega, rfl⟩
  all_goals exact .inl ⟨by omega, _, rfl⟩

theorem encode_decodeEvt2 (w : BitVec 2) : encode (decodeEvt2 w) = .evt2 w := by
  revert w; decide

/-- Whatever a word decodes to encodes to that word. -/
theorem encode_of_decode {w : CodeWord} (h : decode w = .ok i) : encode i = w := by
  cases w with
  | seq4 c => exact (encode_of_decodeSeq4 c i h).1
  | evt2 w =>
    cases h
    exact encode_decodeEvt2 w

/-- A word decodes exactly when it is not reserved. -/
theorem wf_iff_exists_decode (w : CodeWord) : w.wf = true ↔ ∃ i, decode w = .ok i := by
  cases w with
  | seq4 c =>
    obtain ⟨hdefined, hok⟩ | ⟨hreserved, herror⟩ := decodeSeq4_cases c
    · simpa [CodeWord.wf, decode, hdefined] using hok
    · have hundefined : ¬ c.toNat ≤ 0xC := by omega
      simp [CodeWord.wf, decode, herror, hundefined]
  | evt2 w => exact ⟨fun _ => ⟨_, rfl⟩, fun _ => rfl⟩

/-! ## The one fault -/

theorem step_of_turn_reset (h : s.turn = .reset) : step s = .next s.advance.takeReset := by
  simp [step, State.fetch, h]

theorem exec_answers (i : Instr) (s : State) : ∃ t, exec i s = .next t :=
  (exists_effect i s).imp fun _ => exec_of_effect

/-- A step is the fault of a reserved code, at a turn of the sequencer, or it answers a next state (R80, R196). -/
theorem step_faults_or_answers (s : State) :
    (s.turn = .sequencer ∧ 0xD ≤ s.seq.toNat ∧ step s = .fault (.reservedSeq s.seq)) ∨
    ((s.turn = .sequencer → s.seq.toNat ≤ 0xC) ∧ stepsSafely s) := by
  unfold stepsSafely
  cases ht : s.turn with
  | sequencer =>
    obtain ⟨hdefined, i, hi⟩ | ⟨hreserved, herror⟩ := decodeSeq4_cases s.seq
    · rw [step_of_turn_sequencer ht hi]
      exact .inr ⟨fun _ => hdefined, exec_answers i _⟩
    · exact .inl ⟨rfl, hreserved, by simp [step, State.fetch, ht, decode, herror]⟩
  | environment w =>
    rw [step_of_turn_environment ht rfl]
    exact .inr ⟨nofun, exec_answers _ _⟩
  | reset => exact .inr ⟨nofun, _, step_of_turn_reset ht⟩

/-! ## What is written to `SEQ` -/

namespace Effect

/-- Every sequencer operation but IDLE ends at a defined code. -/
theorem seq_defined (h : Effect s i t) (hi : i.isSequencer = true) (hidle : i ≠ .idle) : t.seq.toNat ≤ 0xC := by
  cases h with
  | idleTaken | idleHeld => exact absurd rfl hidle
  | riseHeld | riseRising | riseFree | fallHeld | fallRising | fallFree => cases hi
  | _ => simp

/-- IDLE goes to DISPATCH or holds (R100). -/
theorem seq_of_idle (h : Effect s .idle t) : t.seq = Code.dispatch ∨ t.seq = s.seq := by
  cases h with
  | idleTaken => exact .inl rfl
  | idleHeld => exact .inr rfl

/-- No instruction leads from a defined code to a reserved one (R80). -/
theorem keeps_seq_defined (h : Effect s i t) (hs : s.seq.toNat ≤ 0xC) : t.seq.toNat ≤ 0xC := by
  cases hi : i.isSequencer with
  | false =>
    rw [h.event_frame hi]
    exact hs
  | true =>
    by_cases hidle : i = .idle
    · subst hidle
      obtain hseq | hseq := h.seq_of_idle <;> rw [hseq]
      · decide
      · exact hs
    · exact h.seq_defined hi hidle

end Effect
end Sys2Proof.Machine

/-! ## The obligations -/

open Sys2Proof Sys2Proof.Machine

/-- Settles O4: encoding undoes decoding by the cases of the two formats, and a word that does not decode is reserved. -/
theorem decodeEncodeRoundTrip : Obligations.DecodeEncodeRoundTrip := by
  refine ⟨fun i => ⟨decode_encode i, ?_⟩, fun _ _ => encode_of_decode, wf_iff_exists_decode⟩
  simp [decodeTableWord, tableWord_encode, decode_encode, Except.toOption]

/-- Settles O2: the codes are those of the thirteen operations. -/
theorem thirteenCodesDecode : Obligations.ThirteenCodesDecode :=
  ⟨decode_encode .bootLoad, decode_encode .cfgEdge, decode_encode .cfgClr, decode_encode .cfgEn, decode_encode .idle,
    decode_encode .dispatch, decode_encode .scanDrive, decode_encode .scanSample, decode_encode .restore,
    decode_encode .awaitRelease, decode_encode .rotCall, decode_encode .clrAll, decode_encode .ret⟩

/-- Settles O3: the words are those of the four events. -/
theorem fourEventWordsDecode : Obligations.FourEventWordsDecode :=
  ⟨decode_encode (.fall .buttonArray), decode_encode (.fall .encoderA), decode_encode (.rise .buttonArray),
    decode_encode (.rise .encoderA)⟩

/-- Settles O7: a step faults with the reserved code in `SEQ` or answers, and the writers of `SEQ` are gone through by
agent. -/
theorem reservedCodesFaultAndAreNeverWritten : Obligations.ReservedCodesFaultAndAreNeverWritten := by
  refine ⟨fun s c => ?_, fun s r h => ?_, fun s t i hi hidle h => (exec_eq_next_iff.mp h).seq_defined hi hidle,
    fun s t h => (exec_eq_next_iff.mp h).seq_of_idle, fun s t ht h => ?_, fun s t hs h => ?_⟩
  · obtain ⟨ht, hreserved, hfault⟩ | ⟨hdefined, t, hnext⟩ := step_faults_or_answers s
    · simp [ht, hreserved, hfault, eq_comm]
    · rw [hnext]
      refine ⟨nofun, fun ⟨ht, hreserved, _⟩ => ?_⟩
      have := hdefined ht
      omega
  · obtain ⟨-, -, hfault⟩ | ⟨-, t, hnext⟩ := step_faults_or_answers s
    · simp [hfault] at h
    · simp [hnext] at h
  · obtain rfl : s.advance.takeReset = t := by simpa [step_of_turn_reset ht] using h
    rfl
  · obtain ⟨-, rfl⟩ | ⟨_, -, -, e⟩ | ⟨_, -, e⟩ := step_agent_cases h
    · simp
    · exact e.keeps_seq_defined hs
    · exact e.keeps_seq_defined hs

/-- Settles O43: sound registers hold no reserved code, the only one a step faults at. -/
theorem soundStateStepsSafely : Obligations.SoundStateStepsSafely := by
  intro s hs
  obtain ⟨-, hreserved, -⟩ | ⟨-, hsafe⟩ := step_faults_or_answers s
  · have := hs.seqDefined
    omega
  · exact hsafe
end

section
/-! SUPPORT. Runs in which `SEQ` selects the operations of a list one after another: the composites of R83 (O55). -/

namespace Sys2Proof.Machine

/-- `SelectsAll s is`: from `s` on, the sequencer moving alone, `SEQ` selects the operations `is` in their order.
`runSequencer_eq_execAll` says what such a run gives. -/
inductive SelectsAll : State → List Instr → Prop
  | nil {s : State} : SelectsAll s []
  | cons {s t : State} {i : Instr} {is : List Instr} (selected : encode i = .seq4 s.seq) (effect : Effect s i t)
      (rest : SelectsAll t is) : SelectsAll s (i :: is)

variable {s t : State} {i : Instr} {is : List Instr}

/-- An instruction does the same whoever moves next. -/
theorem Effect.agenda_unread (h : Effect s i t) (turns : List Turn) :
    Effect { s with agenda := turns } i { t with agenda := turns } := by
  cases h <;> constructor <;> assumption

/-- The sequencer's first turn executes the operation that `SEQ` selects. -/
theorem runSequencer_succ (selected : encode i = .seq4 s.seq) (e : Effect s i t) (k : Nat) :
    runSequencer (k + 1) s = runSequencer k t := by
  have hstep : step { s with agenda := .sequencer :: List.replicate k .sequencer } =
      .next { t with agenda := List.replicate k .sequencer } := by
    rw [step_of_turn_sequencer rfl (selected ▸ decode_encode i)]
    exact exec_of_effect (e.agenda_unread _)
  calc runSequencer (k + 1) s
      _ = runTurns (List.replicate k .sequencer) { t with agenda := List.replicate k .sequencer } :=
        runTurns_cons .sequencer _ s _ hstep rfl
      _ = runSequencer k t := rfl

/-- The turns of the sequencer give what executing the selected operations gives. -/
theorem runSequencer_eq_execAll (h : SelectsAll s is) :
    runSequencer is.length s = execAll is { s with agenda := [] } := by
  induction h with
  | nil => rfl
  | cons selected e _ ih =>
    rw [List.length_cons, runSequencer_succ selected e, ih, execAll, exec_of_effect (e.agenda_unread [])]

namespace SelectsAll

/-- One position of the scan before the last: it is driven and sampled, and the next one follows (R116, R118). -/
theorem position (hseq : s.seq = Code.scanDrive) (more : s.idx ≠ lastPosition)
    (rest : ∀ t : State, t.seq = Code.scanDrive → t.idx = nextPosition s.idx → SelectsAll t is) :
    SelectsAll s (.scanDrive :: .scanSample :: is) :=
  .cons (congrArg CodeWord.seq4 hseq.symm) .scanDrive (.cons rfl (.sampleNext more) (rest _ rfl rfl))

/-- The last position of the scan, and the restore, pressed or not (R118, R120). -/
theorem lastPosition_restore (hseq : s.seq = Code.scanDrive) (last : s.idx = lastPosition) :
    SelectsAll s [.scanDrive, .scanSample, .restore] :=
  have ⟨_, hrestore⟩ := exists_effect .restore _
  .cons (congrArg CodeWord.seq4 hseq.symm) .scanDrive (.cons rfl (.sampleLast last) (.cons rfl hrestore .nil))

theorem boot (hseq : s.seq = Code.bootLoad) : SelectsAll s Composite.boot :=
  .cons (congrArg CodeWord.seq4 hseq.symm) .bootLoad (.cons rfl .cfgEdge (.cons rfl .cfgClr (.cons rfl .cfgEn .nil)))

theorem scan (hseq : s.seq = Code.scanDrive) (hidx : s.idx = 0#2) : SelectsAll s Composite.scan := by
  refine position hseq (by rw [hidx]; decide) fun s₁ hseq₁ hidx₁ => ?_
  rw [hidx] at hidx₁
  refine position hseq₁ (by rw [hidx₁]; decide) fun s₂ hseq₂ hidx₂ => ?_
  rw [hidx₁] at hidx₂
  refine position hseq₂ (by rw [hidx₂]; decide) fun s₃ hseq₃ hidx₃ => ?_
  rw [hidx₂] at hidx₃
  exact lastPosition_restore hseq₃ hidx₃

/-- With the flag of `ENCODER_A` alone pending, the interrupt is taken and routed to the rotation handler (R100, R101). -/
theorem encoderInvocation (hseq : s.seq = Code.idle) (hgie : s.gie = true) (hie : s.ie = 0b11#2)
    (hpend : s.pend = 0b10#2) : SelectsAll s (Composite.invocation Composite.serviceEncoder) := by
  have enabled : acceptEnabled s = true := by simp [acceptEnabled, someEnabledPending, hgie, hie, hpend]
  have noButton : lineBit s.takeInterrupt.pend .buttonArray = false := by simp [hpend]
  have encoder : lineBit s.takeInterrupt.pend .encoderA = true := by simp [hpend]
  exact .cons (congrArg CodeWord.seq4 hseq.symm) (.idleTaken enabled) (.cons rfl (.dispatchEncoder noButton encoder)
    (.cons rfl .rotCall (.cons rfl .clrAll (.cons rfl .ret .nil))))

end SelectsAll
end Sys2Proof.Machine

open Sys2Proof Sys2Proof.Machine

/-- Settles O55: from each of the three states `SEQ` selects the composite's operations one after another. -/
theorem compositesAreTheirOperations : Obligations.CompositesAreTheirOperations :=
  ⟨fun _ hseq => runSequencer_eq_execAll (.boot hseq),
    fun _ hseq hidx => runSequencer_eq_execAll (.scan hseq hidx),
    fun _ hseq hgie hie hpend => runSequencer_eq_execAll (.encoderInvocation hseq hgie hie hpend)⟩
end

section
/-! SUPPORT. Runs in which the environment moves between the sequencer's turns: the induction over an interleaving, and
the runs of operations that read no line, which the environment does not divert (O46). -/

namespace Sys2Proof.Machine

variable {s t u : State} {i : Instr} {is : List Instr} {w : BitVec 2} {k : Nat} {ts : List Turn}

/-! ## Interleavings, turn by turn -/

@[simp] theorem interleaves_nil : interleaves k [] ↔ k = 0 := by
  simp [interleaves, eq_comm]

@[simp] theorem interleaves_sequencer_cons : interleaves k (.sequencer :: ts) ↔ ∃ n, k = n + 1 ∧ interleaves n ts := by
  simp [interleaves, eq_comm]

@[simp] theorem interleaves_environment_cons : interleaves k (.environment w :: ts) ↔ interleaves k ts := by
  simp [interleaves]

@[simp] theorem not_interleaves_reset_cons : ¬ interleaves k (.reset :: ts) := by
  simp [interleaves]

/-- The turns before and after a turn of the sequencer are interleavings too. -/
theorem interleaves_split {before after : List Turn} {n : Nat}
    (h : interleaves (k + 1 + n) (before ++ .sequencer :: after)) (hbefore : before.count .sequencer = k) :
    interleaves k before ∧ interleaves n after := by
  obtain ⟨hcount, hreset⟩ := h
  simp only [List.count_append, List.count_cons_self, List.mem_append, List.mem_cons, not_or] at hcount hreset
  exact ⟨⟨hbefore, hreset.1⟩, ⟨by omega, hreset.2.2⟩⟩

/-- A turn that runs an instruction goes on from the state that the instruction's effect gives. -/
theorem runTurns_cons_of_effect {turn : Turn} (e : Effect s i t)
    (hstep : step { s with agenda := turn :: ts } = exec i { s with agenda := ts }) :
    runTurns (turn :: ts) s = runTurns ts t :=
  runTurns_cons turn ts s { t with agenda := ts } (hstep.trans (exec_of_effect (e.agenda_unread ts))) rfl

/-- On its turn the sequencer executes the operation that `SEQ` selects. -/
theorem runTurns_sequencer_cons (selected : encode i = .seq4 s.seq) (e : Effect s i t) (ts : List Turn) :
    runTurns (.sequencer :: ts) s = runTurns ts t :=
  runTurns_cons_of_effect e (step_of_turn_sequencer rfl (selected ▸ decode_encode i))

/-- On its turn the environment takes the event that its word names. -/
theorem runTurns_environment_cons (e : Effect s (decodeEvt2 w) t) (ts : List Turn) :
    runTurns (.environment w :: ts) s = runTurns ts t :=
  runTurns_cons_of_effect e (step_of_turn_environment rfl rfl)

/-- A run that any further turns take up from `t` ends, without them, in `t`. -/
theorem runTurns_eq_next (h : ∀ rest, runTurns (ts ++ rest) s = runTurns rest t) :
    runTurns ts s = .next { t with agenda := [] } := by
  simpa [runTurns_nil] using h []

/-- The induction over an interleaving. `P k` holds of the states with `k` turns of the sequencer left: if an operation of
the sequencer leads from `P (k + 1)` to `P k` and every allowed event keeps `P k`, an interleaving of `k` turns leads from
`P k` to `P 0`. The state reached is the one that any further turns start from. -/
theorem runTurns_interleaved {P : Nat → State → Prop} {allowed : BitVec 2 → Prop}
    (operation : ∀ k s, P (k + 1) s → ∃ i t, encode i = .seq4 s.seq ∧ Effect s i t ∧ P k t)
    (event : ∀ k s t w, P k s → allowed w → Effect s (decodeEvt2 w) t → P k t)
    (hs : P k s) (hts : interleaves k ts) (hw : ∀ w, .environment w ∈ ts → allowed w) :
    ∃ t, P 0 t ∧ ∀ rest, runTurns (ts ++ rest) s = runTurns rest t := by
  induction ts generalizing k s with
  | nil =>
    obtain rfl := interleaves_nil.mp hts
    exact ⟨s, hs, fun _ => rfl⟩
  | cons turn ts ih =>
    have hw' : ∀ w, .environment w ∈ ts → allowed w := fun w h => hw w (.tail _ h)
    cases turn with
    | sequencer =>
      obtain ⟨n, rfl, hrest⟩ := interleaves_sequencer_cons.mp hts
      obtain ⟨i, u, selected, e, hu⟩ := operation n s hs
      obtain ⟨t, ht, hrun⟩ := ih hu hrest hw'
      exact ⟨t, ht, fun rest => (runTurns_sequencer_cons selected e _).trans (hrun rest)⟩
    | environment w =>
      obtain ⟨u, e⟩ := exists_effect (decodeEvt2 w) s
      have hu : P k u := event k s u w hs (hw w (.head _)) e
      obtain ⟨t, ht, hrun⟩ := ih hu (interleaves_environment_cons.mp hts) hw'
      exact ⟨t, ht, fun rest => (runTurns_environment_cons e _).trans (hrun rest)⟩
    | reset => exact absurd hts not_interleaves_reset_cons

/-! ## Operations that read no line -/

/-- The operations that read neither the levels nor the flags, so that what they do is the same after an event. -/
def ignoresLines : Instr → Bool
  | .idle | .dispatch | .scanSample | .awaitRelease | .rise _ | .fall _ => false
  | _ => true

/-- `DriftsTo s t`: `t` is `s` but for what events write, the levels, the flags and the count of draws (R144). -/
def DriftsTo (s t : State) : Prop :=
  ∃ levels flags count, t = { s with lvl := levels, pend := flags, draws := count }

namespace DriftsTo

theorem refl (s : State) : DriftsTo s s := ⟨s.lvl, s.pend, s.draws, rfl⟩

theorem seq_eq (d : DriftsTo s t) : t.seq = s.seq := by
  obtain ⟨_, _, _, rfl⟩ := d
  rfl

theorem edge_eq (d : DriftsTo s t) : t.edge = s.edge := by
  obtain ⟨_, _, _, rfl⟩ := d
  rfl

/-- An event is a drift. -/
theorem event (d : DriftsTo s t) (e : Effect t (decodeEvt2 w) u) : DriftsTo s u := by
  obtain ⟨levels, flags, count, rfl⟩ := d
  exact ⟨_, _, _, e.event_frame (isSequencer_decodeEvt2 w)⟩

/-- An operation that reads no line does the same to a state that has drifted, but for the drift. -/
theorem operation {s' : State} (d : DriftsTo s s') (hi : ignoresLines i = true) (e : Effect s i t) :
    ∃ t', Effect s' i t' ∧ DriftsTo t t' := by
  obtain ⟨levels, flags, count, rfl⟩ := d
  cases e with
  | cfgClr => exact ⟨_, .cfgClr, levels, 0b00#2, count, rfl⟩
  | clrAll => exact ⟨_, .clrAll, levels, 0b00#2, count, rfl⟩
  | bootLoad => exact ⟨_, .bootLoad, levels, flags, count, rfl⟩
  | cfgEdge => exact ⟨_, .cfgEdge, levels, flags, count, rfl⟩
  | cfgEn => exact ⟨_, .cfgEn, levels, flags, count, rfl⟩
  | scanDrive => exact ⟨_, .scanDrive, levels, flags, count, rfl⟩
  | restorePressed pressed => exact ⟨_, .restorePressed pressed, levels, flags, count, rfl⟩
  | restoreUnpressed unpressed => exact ⟨_, .restoreUnpressed unpressed, levels, flags, count, rfl⟩
  | rotCall => exact ⟨_, .rotCall, levels, flags, count, rfl⟩
  | ret => exact ⟨_, .ret, levels, flags, count, rfl⟩
  | _ => cases hi

end DriftsTo

/-- `Underway out k t`: with `k` operations left, none of which reads a line, a run that would end with the outcome `out`
under a silent environment has come to `t` up to a drift. -/
def Underway (out : Host.Outcome State Fault Refusal) (k : Nat) (t : State) : Prop :=
  ∃ u is, is.length = k ∧ SelectsAll u is ∧ (∀ i ∈ is, ignoresLines i = true) ∧ execAll is u = out ∧ DriftsTo u t

namespace Underway

variable {out : Host.Outcome State Fault Refusal}

theorem event (h : Underway out k s) (e : Effect s (decodeEvt2 w) t) : Underway out k t := by
  obtain ⟨u, is, hlen, selects, ignores, hexec, d⟩ := h
  exact ⟨u, is, hlen, selects, ignores, hexec, d.event e⟩

theorem operation (h : Underway out (k + 1) s) : ∃ i t, encode i = .seq4 s.seq ∧ Effect s i t ∧ Underway out k t := by
  obtain ⟨u, is, hlen, selects, ignores, hexec, d⟩ := h
  cases selects with
  | nil => cases hlen
  | cons selected e selects =>
    obtain ⟨t, e', d'⟩ := d.operation (ignores _ (.head _)) e
    rw [execAll, exec_of_effect e] at hexec
    exact ⟨_, t, d.seq_eq ▸ selected, e',
      _, _, Nat.succ.inj hlen, selects, fun j hj => ignores j (.tail _ hj), hexec, d'⟩

end Underway

/-- Where `SEQ` selects operations that read no line, every interleaving with the environment comes to what executing them
gives, up to a drift. -/
theorem runTurns_of_selectsAll (selects : SelectsAll s is) (ignores : ∀ i ∈ is, ignoresLines i = true)
    (hts : interleaves is.length ts) :
    ∃ u t, execAll is s = .next u ∧ DriftsTo u t ∧ ∀ rest, runTurns (ts ++ rest) s = runTurns rest t := by
  have hend : ∃ t, Underway (execAll is s) 0 t ∧ ∀ rest, runTurns (ts ++ rest) s = runTurns rest t := by
    refine runTurns_interleaved (allowed := fun _ => True) ?_ ?_ ⟨s, is, rfl, selects, ignores, rfl, .refl s⟩ hts
      fun _ _ => trivial
    · exact fun k t => Underway.operation
    · exact fun k t t' w h _ => h.event
  obtain ⟨t, ⟨u, is', hlen, -, -, hexec, d⟩, hrun⟩ := hend
  obtain rfl := List.eq_nil_of_length_eq_zero hlen
  exact ⟨u, t, hexec.symm, d, hrun⟩

/-! ## The flags between CFG_CLR and the end of boot -/

/-- With rising sense a FALL leaves the flags (R141). -/
theorem Effect.pend_eq_of_fall {l : Line} (h : Effect s (.fall l) t) (rising : edgeIsRising s l = true) :
    t.pend = s.pend := by
  cases h with
  | fallHeld | fallRising => rfl
  | fallFree _ falling => simp [rising] at falling

/-- A word that is no RISE is a FALL (R72). -/
theorem decodeEvt2_eq_fall (w : BitVec 2) (hbutton : w ≠ 0b10#2) (hencoder : w ≠ 0b11#2) :
    decodeEvt2 w = .fall (Line.ofBit (w.getLsbD 0)) := by
  revert w; decide

/-- Boot once CFG_CLR is done, with `k` turns left: CFG_EN is due or done, both senses are rising and no flag is set. -/
def BootCleared (k : Nat) (s : State) : Prop :=
  (k = 0 ∨ k = 1 ∧ s.seq = Code.cfgEn) ∧ s.edge = 0b00#2 ∧ s.pend = 0b00#2

/-- Without a RISE the flags that CFG_CLR cleared stay clear to the end of boot (R94). -/
theorem bootCleared_of_interleaving (hs : BootCleared 1 s) (hts : interleaves 1 ts)
    (hbutton : .environment 0b10#2 ∉ ts) (hencoder : .environment 0b11#2 ∉ ts) :
    ∃ t, BootCleared 0 t ∧ ∀ rest, runTurns (ts ++ rest) s = runTurns rest t := by
  refine runTurns_interleaved (allowed := fun w => w ≠ 0b10#2 ∧ w ≠ 0b11#2) ?_ ?_ hs hts fun w hw =>
    ⟨fun h => hbutton (h ▸ hw), fun h => hencoder (h ▸ hw)⟩
  · rintro k s ⟨hk | ⟨hk, hseq⟩, hedge, hpend⟩
    · cases hk
    · exact ⟨.cfgEn, _, congrArg CodeWord.seq4 hseq.symm, .cfgEn, .inl (Nat.succ.inj hk), hedge, hpend⟩
  · rintro k s t w ⟨hk, hedge, hpend⟩ ⟨hw, hw'⟩ e
    rw [decodeEvt2_eq_fall w hw hw'] at e
    have rising : edgeIsRising s (Line.ofBit (w.getLsbD 0)) = true := by
      cases Line.ofBit (w.getLsbD 0) <;> simp [edgeIsRising, hedge]
    have hseq : t.seq = s.seq := by rw [e.event_frame rfl]
    exact ⟨hseq ▸ hk, (e.edge_eq nofun).trans hedge, (e.pend_eq_of_fall rising).trans hpend⟩

/-- Boot ends with no flag set when no RISE comes after its third operation, CFG_CLR (R94). -/
theorem pend_eq_zero_of_boot {before after : List Turn} (hseq : s.seq = Code.bootLoad)
    (hts : interleaves 4 (before ++ .sequencer :: after)) (hbefore : before.count .sequencer = 2)
    (hbutton : .environment 0b10#2 ∉ after) (hencoder : .environment 0b11#2 ∉ after)
    (hrun : runTurns (before ++ .sequencer :: after) s = .next t) : t.pend = 0b00#2 := by
  obtain ⟨hbefore, hafter⟩ := interleaves_split (n := 1) hts hbefore
  have selects : SelectsAll s [.bootLoad, .cfgEdge] :=
    .cons (congrArg CodeWord.seq4 hseq.symm) .bootLoad (.cons rfl .cfgEdge .nil)
  obtain ⟨_, v, hexec, d, hfirst⟩ := runTurns_of_selectsAll selects (by decide) hbefore
  cases hexec
  have cleared : BootCleared 1 (v.clearAllPend.goto Code.cfgEn) := ⟨.inr ⟨rfl, rfl⟩, d.edge_eq, rfl⟩
  obtain ⟨u, ⟨-, -, hpend⟩, hlast⟩ := bootCleared_of_interleaving cleared hafter hbutton hencoder
  have hfinal : runTurns (before ++ .sequencer :: after) s = .next { u with agenda := [] } :=
    calc runTurns (before ++ .sequencer :: after) s
      _ = runTurns (.sequencer :: after) v := hfirst _
      _ = runTurns after (v.clearAllPend.goto Code.cfgEn) :=
        runTurns_sequencer_cons (i := .cfgClr) (congrArg CodeWord.seq4 d.seq_eq.symm) .cfgClr after
      _ = .next { u with agenda := [] } := runTurns_eq_next hlast
  rw [hfinal] at hrun
  cases hrun
  exact hpend

end Sys2Proof.Machine

/-! ## The obligations -/

open Sys2Proof Sys2Proof.Machine

/-- Settles O46: boot reads no line, so under every interleaving it comes to what its four operations give, up to a
drift; the flags are followed from CFG_CLR on. -/
theorem bootUnderAnyInterleaving : Obligations.BootUnderAnyInterleaving := by
  intro s ts hseq hts
  obtain ⟨_, t, hexec, ⟨levels, flags, count, rfl⟩, hrun⟩ := runTurns_of_selectsAll (.boot hseq) (by decide) hts
  cases hexec
  have hrun := runTurns_eq_next hrun
  refine ⟨_, hrun, rfl, rfl, rfl, rfl, rfl, rfl, List.append_assoc _ _ _, rfl, rfl, ?_⟩
  rintro before after rfl hbefore hbutton hencoder
  exact pend_eq_zero_of_boot hseq hts hbefore hbutton hencoder hrun

/-- Settles O10: the one effect of BOOT_LOAD, written out. -/
theorem bootLoadLoadsAndSendsPattern : Obligations.BootLoadLoadsAndSendsPattern :=
  ⟨decode_encode .bootLoad, fun _ => exec_of_effect .bootLoad⟩

/-- Settles O11: the one effect of CFG_EDGE, written out. -/
theorem cfgEdgeSelectsRising : Obligations.CfgEdgeSelectsRising :=
  ⟨decode_encode .cfgEdge, fun _ => exec_of_effect .cfgEdge⟩

/-- Settles O12: the one effect of CFG_CLR, written out. -/
theorem cfgClrClearsStaleFlags : Obligations.CfgClrClearsStaleFlags :=
  ⟨decode_encode .cfgClr, fun _ => exec_of_effect .cfgClr⟩

/-- Settles O13: the one effect of CFG_EN, written out. -/
theorem cfgEnEnablesInterrupts : Obligations.CfgEnEnablesInterrupts :=
  ⟨decode_encode .cfgEn, fun _ => exec_of_effect .cfgEn⟩
end

section
/-! SUPPORT. Which event may follow which in the history, as a relation (`Follows`), and the step that keeps the history
one the spec allows (O42). -/

namespace Sys2Proof.Machine

variable {s t : State} {i : Instr} {p : Params} {ph ph' : TracePhase} {e : Event} {es : List Event}

/-! ## The language of the event history, event by event -/

/-- `Follows p ph e ph'`: in phase `ph` the event `e` may come, and leads to `ph'`. `traceNext_eq_some_iff` says that this
is `traceNext`. -/
inductive Follows (p : Params) : TracePhase → Event → TracePhase → Prop
  | bootPattern : Follows p .start (.srWrite (0#4 ++ p.leds)) .loaded
  | bootClear : Follows p .loaded .pendClearAll .main
  | enter : Follows p .main .enter .entered
  | clearButton : Follows p .entered (.pendClear .buttonArray) (.scanning 0#2 false)
  | clearEncoder : Follows p .entered (.pendClear .encoderA) .rotating
  | drive (i : BitVec 2) (any : Bool) :
      Follows p (.scanning i any) (.srWrite ((1#4 <<< i.toNat) ++ p.leds)) (.driven i any)
  | sampleLow (i : BitVec 2) (any : Bool) : Follows p (.driven i any) (.sample i false) (afterPosition i any)
  | sampleHigh (i : BitVec 2) (any : Bool) : Follows p (.driven i any) (.sample i true) (.reporting i)
  | report (i : BitVec 2) : Follows p (.reporting i) (.buttonReport i) (afterPosition i true)
  | restorePressed : Follows p (.restoring true) (.srWrite (0#4 ++ p.leds)) (.waiting 0)
  | restoreUnpressed : Follows p (.restoring false) (.srWrite (0#4 ++ p.leds)) .closing
  | pollReleased (k : Nat) : Follows p (.waiting k) (.poll false) .closing
  | pollLast (k : Nat) (bound : p.tRelease = some k) : Follows p (.waiting k) (.poll true) .expired
  | pollHeld (k : Nat) (more : p.tRelease ≠ some k) : Follows p (.waiting k) (.poll true) (.waiting (k + 1))
  | timeout : Follows p .expired .releaseTimeout .closing
  | rotInvoke : Follows p .rotating .rotInvoke .closing
  | clearAll : Follows p .closing .pendClearAll .returning
  | ret : Follows p .returning .ret .main

theorem traceNext_of_follows (h : Follows p ph e ph') : traceNext p ph e = some ph' := by
  cases h with
  | pollLast _ h | pollHeld _ h => simp [traceNext, afterAssertedPoll, h]
  | _ => simp [traceNext]

theorem follows_of_traceNext (h : traceNext p ph e = some ph') : Follows p ph e ph' := by
  unfold traceNext at h
  split at h <;> simp only [Option.ite_none_right_eq_some, Option.some.injEq, reduceCtorEq] at h
  case h_7 i any j level =>
    obtain ⟨rfl, rfl⟩ := h
    cases level with
    | false => exact .sampleLow j any
    | true => exact .sampleHigh j any
  case h_9 any v =>
    obtain ⟨rfl, rfl⟩ := h
    cases any with
    | false => exact .restoreUnpressed
    | true => exact .restorePressed
  case h_10 k level =>
    subst h
    cases level with
    | false => exact .pollReleased k
    | true =>
      by_cases hk : p.tRelease = some k
      · simpa [afterAssertedPoll, hk] using .pollLast k hk
      · simpa [afterAssertedPoll, hk] using .pollHeld k hk
  case h_1 | h_6 | h_8 =>
    obtain ⟨rfl, rfl⟩ := h
    constructor
  all_goals
    subst h
    constructor

theorem traceNext_eq_some_iff : traceNext p ph e = some ph' ↔ Follows p ph e ph' :=
  ⟨follows_of_traceNext, traceNext_of_follows⟩

theorem traceRun_cons_eq_some_iff {last : TracePhase} :
    traceRun p ph (e :: es) = some last ↔ ∃ ph', Follows p ph e ph' ∧ traceRun p ph' es = some last := by
  simp only [traceRun, ← traceNext_eq_some_iff]
  cases traceNext p ph e <;> simp

theorem traceRun_append_eq_some_iff {fs : List Event} {last : TracePhase} :
    traceRun p ph (es ++ fs) = some last ↔ ∃ ph', traceRun p ph es = some ph' ∧ traceRun p ph' fs = some last := by
  rw [traceRun_append, Option.bind_eq_some_iff]

theorem traceRun_singleton_eq_some_iff : traceRun p ph [e] = some ph' ↔ Follows p ph e ph' := by
  rw [traceRun_cons_eq_some_iff]
  simp [traceRun]

theorem traceRun_singleton (h : Follows p ph e ph') : traceRun p ph [e] = some ph' :=
  traceRun_singleton_eq_some_iff.mpr h

/-- The restore follows the last position (R118). -/
theorem afterPosition_of_last {i : BitVec 2} (h : i = lastPosition) (any : Bool) :
    afterPosition i any = .restoring any := if_pos h

theorem afterPosition_of_more {i : BitVec 2} (h : i ≠ lastPosition) (any : Bool) :
    afterPosition i any = .scanning (nextPosition i) any := if_neg h

theorem traceRun_sampleEvents (p : Params) (i : BitVec 2) (any level : Bool) :
    traceRun p (.driven i any) (sampleEvents i level) = some (afterPosition i (any || level)) := by
  cases level with
  | false =>
    rw [Bool.or_false]
    exact traceRun_singleton (.sampleLow i any)
  | true =>
    rw [Bool.or_true]
    exact traceRun_cons_eq_some_iff.mpr ⟨_, .sampleHigh i any, traceRun_singleton (.report i)⟩

/-! ## The bytes that the scan sends -/

theorem RegistersSound.transient_out (hs : RegistersSound s) (hseq : s.seq = Code.scanDrive) :
    transient s.out s.idx = (1#4 <<< s.idx.toNat) ++ s.params.leds := by
  rw [hs.outPattern (by simp [hseq]), transient_append]

theorem RegistersSound.restored_out (hs : RegistersSound s) (hseq : s.seq = Code.restore) :
    restored s.out = 0#4 ++ s.params.leds := by
  rw [hs.outPattern (by simp [hseq]), restored_append]

/-! ## The count of asserted polls -/

/-- Where the history's count of asserted polls is the one in `WAITCNT`, the wait ends at the bound by both (R132). -/
theorem waitExpired_iff_of_count {k : Nat} (hk : s.params.tRelease ≠ none → k = s.waitcnt) :
    waitExpired s = true ↔ s.params.tRelease = some k := by
  unfold waitExpired
  cases hn : s.params.tRelease with
  | none => simp
  | some n =>
    rw [hk (by simp [hn])]
    simpa using eq_comm

theorem waitcntIfPresent_of_bounded (hn : s.params.tRelease ≠ none) (value : Nat) :
    waitcntIfPresent s value = value := by
  unfold waitcntIfPresent
  split
  case h_1 h => exact absurd h hn
  case h_2 => rfl

/-! ## The history over a step -/

/-- An operation of the sequencer appends events that bring the history from the phase that the registers call for to the
one that they call for afterwards. -/
theorem Effect.history_advances (hs : RegistersSound s) (hi : encode i = .seq4 s.seq) (e : Effect s i t)
    (fits : phaseFits s ph) :
    ∃ es ph', t.trace = s.trace ++ es ∧ traceRun s.params ph es = some ph' ∧ phaseFits t ph' := by
  cases e <;> simp only [encode, CodeWord.seq4.injEq, reduceCtorEq] at hi
  case idleHeld => exact ⟨[], ph, (List.append_nil _).symm, rfl, fits⟩
  case dispatchNone noButton noEncoder =>
    obtain ⟨l, hl⟩ := (ne_zero_iff_exists_lineBit _).mp (hs.dispatchPending hi.symm)
    cases l with
    | buttonArray => simp [noButton] at hl
    | encoderA => simp [noEncoder] at hl
  all_goals rw [phaseFits, ← hi] at fits
  case pollReleased =>
    obtain ⟨k, rfl, -⟩ := fits
    exact ⟨[.poll false], .closing, rfl, traceRun_singleton (.pollReleased k), rfl⟩
  case pollExpired expired =>
    obtain ⟨k, rfl, hk⟩ := fits
    have bound := (waitExpired_iff_of_count hk).mp expired
    exact ⟨[.poll true, .releaseTimeout], .closing, (List.append_cons ..).symm,
      traceRun_cons_eq_some_iff.mpr ⟨_, .pollLast k bound, traceRun_singleton .timeout⟩, rfl⟩
  case pollHeld more =>
    obtain ⟨k, rfl, hk⟩ := fits
    have below : s.params.tRelease ≠ some k := fun h => by simp [(waitExpired_iff_of_count hk).mpr h] at more
    refine ⟨[.poll true], _, rfl, traceRun_singleton (.pollHeld k below), k + 1, rfl, fun hn => ?_⟩
    exact (congrArg (· + 1) (hk hn)).trans (waitcntIfPresent_of_bounded (s := s) hn _).symm
  all_goals cases fits
  case bootLoad => exact ⟨_, _, rfl, traceRun_singleton .bootPattern, rfl⟩
  case cfgEdge | cfgEn => exact ⟨[], _, (List.append_nil _).symm, rfl, rfl⟩
  case cfgClr => exact ⟨_, _, rfl, traceRun_singleton .bootClear, rfl⟩
  case idleTaken => exact ⟨_, _, rfl, traceRun_singleton .enter, rfl⟩
  case dispatchButton => exact ⟨_, _, rfl, traceRun_singleton .clearButton, rfl⟩
  case dispatchEncoder => exact ⟨_, _, rfl, traceRun_singleton .clearEncoder, rfl⟩
  case scanDrive =>
    exact ⟨_, _, rfl, traceRun_singleton (hs.transient_out hi.symm ▸ .drive s.idx s.any), rfl⟩
  case sampleLast last =>
    refine ⟨_, _, rfl, traceRun_sampleEvents .., ?_⟩
    rw [afterPosition_of_last last]
    rfl
  case sampleNext more =>
    refine ⟨_, _, rfl, traceRun_sampleEvents .., ?_⟩
    rw [afterPosition_of_more more]
    rfl
  case restorePressed pressed =>
    rw [pressed]
    refine ⟨_, _, rfl, traceRun_singleton (hs.restored_out hi.symm ▸ .restorePressed), 0, rfl, fun hn => ?_⟩
    exact (waitcntIfPresent_of_bounded (s := s) hn _).symm
  case restoreUnpressed unpressed =>
    rw [unpressed]
    exact ⟨_, _, rfl, traceRun_singleton (hs.restored_out hi.symm ▸ .restoreUnpressed), rfl⟩
  case rotCall => exact ⟨_, _, rfl, traceRun_singleton .rotInvoke, rfl⟩
  case clrAll => exact ⟨_, _, rfl, traceRun_singleton .clearAll, rfl⟩
  case ret => exact ⟨_, _, rfl, traceRun_singleton .ret, rfl⟩

namespace TraceSound

theorem advance (ht : TraceSound s) : TraceSound s.advance := ht

theorem of_operation (hs : RegistersSound s) (h : TraceSound s) (hi : encode i = .seq4 s.seq) (e : Effect s i t) :
    TraceSound t := by
  obtain ⟨ph, hrun, fits⟩ := h
  obtain ⟨es, ph', htrace, hes, fits'⟩ := e.history_advances hs hi fits
  refine ⟨ph', ?_, fits'⟩
  rw [e.params_agenda_eq.1, htrace, traceRun_append_eq_some_iff]
  exact ⟨ph, hrun, hes⟩

/-- An event writes neither the history nor a register that says how far it has come (R144). -/
theorem of_event (h : TraceSound s) (hi : i.isSequencer = false) (e : Effect s i t) : TraceSound t := by
  rw [e.event_frame hi]
  exact h

/-- RESET empties the history and starts at BOOT_LOAD (R143). -/
theorem of_reset (s : State) : TraceSound s.takeReset := ⟨.start, rfl, rfl⟩

end TraceSound
end Sys2Proof.Machine

open Sys2Proof Sys2Proof.Machine

/-- Settles O42: RESET starts the history afresh, an operation appends what its phase allows, and an event nothing. -/
theorem stepKeepsHistoryLawful : Obligations.StepKeepsHistoryLawful := by
  intro s t hs ht h
  obtain ⟨-, rfl⟩ | ⟨i, -, hi, e⟩ | ⟨w, -, e⟩ := step_agent_cases h
  · exact .of_reset _
  · exact ht.advance.of_operation hs.advance hi e
  · exact ht.advance.of_event (isSequencer_decodeEvt2 w) e
end

section
/-! SUPPORT. What an invocation does, read off its history: the actions that a phase inside an invocation has still to
come (O45). -/

namespace Sys2Proof.Machine

variable {p : Params} {ph ph' : TracePhase} {e : Event} {es : List Event}

/-- The events of an invocation that act on the flags, the shift register or the handler, as against the readings of the
sense line, their reports and the timeout. -/
def isAction : Event → Bool
  | .srWrite _ | .rotInvoke | .pendClear _ | .pendClearAll => true
  | _ => false

/-- The five bytes of a scan (R117). -/
def scanBytes (leds : BitVec 4) : List (BitVec 8) :=
  [0x1#4 ++ leds, 0x2#4 ++ leds, 0x4#4 ++ leds, 0x8#4 ++ leds, 0x0#4 ++ leds]

/-- What is left of a scan and its close once `sent` of its bytes are sent (R117, R104). -/
def scanActionsFrom (p : Params) (sent : Nat) : List Event :=
  ((scanBytes p.leds).drop sent).map .srWrite ++ [.pendClearAll]

/-- Whether a phase lies between the `PendClear` and the `Return` of an invocation. -/
def inService : TracePhase → Bool
  | .start | .loaded | .main | .entered => false
  | _ => true

/-- The actions due from a phase in service up to the `Return` (R103, R104, R117). -/
def actionsDue (p : Params) : TracePhase → List Event
  | .scanning i _ => scanActionsFrom p i.toNat
  | .driven i _ | .reporting i => scanActionsFrom p (i.toNat + 1)
  | .restoring _ => scanActionsFrom p 4
  | .rotating => [.rotInvoke, .pendClearAll]
  | .waiting _ | .expired | .closing => [.pendClearAll]
  | _ => []

/-- The byte of position `i` is the next one of the scan (R116, R117). -/
theorem scanActionsFrom_position (p : Params) (i : BitVec 2) :
    scanActionsFrom p i.toNat = .srWrite ((1#4 <<< i.toNat) ++ p.leds) :: scanActionsFrom p (i.toNat + 1) := by
  have hi : i = 0#2 ∨ i = 1#2 ∨ i = 2#2 ∨ i = 3#2 := by revert i; decide
  obtain rfl | rfl | rfl | rfl := hi <;> rfl

theorem inService_afterPosition (i : BitVec 2) (any : Bool) : inService (afterPosition i any) = true := by
  by_cases h : i = lastPosition
  · rw [afterPosition_of_last h]; rfl
  · rw [afterPosition_of_more h]; rfl

theorem actionsDue_afterPosition (p : Params) (i : BitVec 2) (any : Bool) :
    actionsDue p (afterPosition i any) = scanActionsFrom p (i.toNat + 1) := by
  by_cases h : i = lastPosition
  · rw [afterPosition_of_last h, h]; rfl
  · have hnext : (nextPosition i).toNat = i.toNat + 1 := by revert i; decide
    rw [afterPosition_of_more h, actionsDue, hnext]

namespace Follows

/-- Service ends only with the `Return`. -/
theorem stays_inService (h : Follows p ph e ph') (hph : inService ph = true) (hret : e ≠ .ret) :
    inService ph' = true := by
  cases h with
  | bootPattern | bootClear | enter | clearButton | clearEncoder => cases hph
  | sampleLow | report => exact inService_afterPosition _ _
  | ret => exact absurd rfl hret
  | _ => rfl

/-- In service an event is the first of the actions due, or no action. -/
theorem actionsDue_eq (h : Follows p ph e ph') (hph : inService ph = true) (hret : e ≠ .ret) :
    actionsDue p ph = [e].filter isAction ++ actionsDue p ph' := by
  cases h with
  | bootPattern | bootClear | enter | clearButton | clearEncoder => cases hph
  | drive i => exact scanActionsFrom_position p i
  | sampleLow | report => exact (actionsDue_afterPosition ..).symm
  | ret => exact absurd rfl hret
  | _ => rfl

end Follows

/-- In service the actions up to the `Return` are the ones due. -/
theorem filter_isAction_of_service (hrun : traceRun p ph es = some .returning) (hph : inService ph = true)
    (hret : .ret ∉ es) : es.filter isAction = actionsDue p ph := by
  induction es generalizing ph with
  | nil =>
    cases hrun
    rfl
  | cons e es ih =>
    obtain ⟨ph', h, hrest⟩ := traceRun_cons_eq_some_iff.mp hrun
    have hne : e ≠ .ret := (List.ne_of_not_mem_cons hret).symm
    have hdue := ih hrest (h.stays_inService hph hne) (List.not_mem_of_not_mem_cons hret)
    rw [h.actionsDue_eq hph hne, ← hdue, ← List.filter_append]
    rfl

/-- The actions of a finished invocation: the scan's or the encoder's. -/
theorem filter_isAction_of_invocation (hrun : traceRun p .entered es = some .returning) (hret : .ret ∉ es) :
    es.filter isAction = .pendClear .buttonArray :: scanActionsFrom p 0 ∨
      es.filter isAction = [.pendClear .encoderA, .rotInvoke, .pendClearAll] := by
  cases es with
  | nil => cases hrun
  | cons e es =>
    obtain ⟨ph', h, hrest⟩ := traceRun_cons_eq_some_iff.mp hrun
    replace hret := List.not_mem_of_not_mem_cons hret
    cases h with
    | clearButton => exact .inl (congrArg _ (filter_isAction_of_service hrest rfl hret))
    | clearEncoder => exact .inr (congrArg _ (filter_isAction_of_service hrest rfl hret))

/-- The part of a history between an `Enter` and the `Return` that ends it leads from the one's phase to the other's. -/
theorem traceRun_inside {before inside after : List Event} {last : TracePhase}
    (h : traceRun p .start (before ++ [.enter] ++ inside ++ [.ret] ++ after) = some last) :
    traceRun p .entered inside = some .returning := by
  simp only [traceRun_append_eq_some_iff, traceRun_singleton_eq_some_iff] at h
  obtain ⟨_, ⟨_, ⟨_, ⟨_, -, enters⟩, hinside⟩, returns⟩, -⟩ := h
  cases enters
  cases returns
  exact hinside

/-! ## What depends on the actions alone -/

theorem count_eq_count_actions (he : isAction e = true) (es : List Event) :
    es.count e = (es.filter isAction).count e :=
  (List.count_filter he).symm

theorem mem_iff_mem_actions (he : isAction e = true) (es : List Event) : e ∈ es ↔ e ∈ es.filter isAction := by
  simp [List.mem_filter, he]

theorem filter_isPendClear_actions (es : List Event) :
    es.filter isPendClear = (es.filter isAction).filter isPendClear := by
  rw [List.filter_filter]
  refine List.filter_congr fun e _ => ?_
  cases e <;> rfl

theorem bytesWritten_actions (es : List Event) : bytesWritten es = bytesWritten (es.filter isAction) := by
  unfold bytesWritten
  rw [List.filterMap_filter]
  refine List.filterMap_congr fun e _ => ?_
  cases e <;> rfl

end Sys2Proof.Machine

open Sys2Proof Sys2Proof.Machine

/-- Settles O45: the invocation's actions are the scan's or the encoder's, and each clause is about the actions. -/
theorem invocationShape : Obligations.InvocationShape := by
  rintro s before inside after ⟨ph, hrun, -⟩ htrace - hret
  rw [htrace] at hrun
  rw [filter_isPendClear_actions, bytesWritten_actions, count_eq_count_actions (e := .pendClearAll) rfl,
    count_eq_count_actions (e := .rotInvoke) rfl, mem_iff_mem_actions (e := .pendClear .buttonArray) rfl,
    mem_iff_mem_actions (e := .pendClear .encoderA) rfl]
  obtain hactions | hactions := filter_isAction_of_invocation (traceRun_inside hrun) hret <;> rw [hactions]
  · exact ⟨rfl, rfl, fun _ => ⟨rfl, rfl⟩, fun h => by simp [scanActionsFrom, scanBytes] at h⟩
  · exact ⟨rfl, rfl, fun h => by simp at h, fun _ => ⟨rfl, rfl⟩⟩
end

section
/-! SUPPORT. The flags during a handler, the effects of the dispatch operations written out, and the run of an encoder
invocation with an edge of the button line before or after its CLR_ALL (O14 to O18, O37, O54). -/

namespace Sys2Proof.Machine

variable {s t : State} {i : Instr}

/-- No operation of a handler reads or writes the flags (R105). -/
theorem Effect.pend_unread (h : Effect s i t)
    (hi : i ∈ [Instr.scanDrive, .scanSample, .restore, .awaitRelease, .rotCall]) (flags : BitVec 2) :
    Effect { s with pend := flags } i { t with pend := flags } := by
  cases h with
  | scanDrive | sampleLast | sampleNext | restorePressed | restoreUnpressed | pollReleased | pollExpired | pollHeld
    | rotCall => constructor <;> assumption
  | _ => simp at hi

/-- The acceptance is enabled exactly when interrupts are globally enabled and a line is enabled and pending (R100). -/
theorem acceptEnabled_iff (s : State) :
    acceptEnabled s = true ↔ s.gie = true ∧ ∃ l, lineBit s.ie l = true ∧ lineBit s.pend l = true := by
  unfold acceptEnabled someEnabledPending
  simp only [Bool.and_eq_true, Bool.or_eq_true]
  refine and_congr_right fun _ => ⟨fun h => h.elim (⟨_, ·⟩) (⟨_, ·⟩), fun ⟨l, hl⟩ => ?_⟩
  cases l with
  | buttonArray => exact .inl hl
  | encoderA => exact .inr hl

/-- The sequencer's turn in IDLE is enabled exactly when the acceptance is (R79, R100). -/
theorem turnEnabled_of_idle (h : s.seq = Code.idle) : turnEnabled s .sequencer = acceptEnabled s := if_pos h

/-! ## The turns of an encoder invocation and of an edge of the button line -/

theorem runTurns_rotCall_cons (h : s.seq = Code.rotCall) (ts : List Turn) :
    runTurns (.sequencer :: ts) s = runTurns ts ((s.emit .rotInvoke).goto Code.clrAll) :=
  runTurns_sequencer_cons (i := .rotCall) (congrArg CodeWord.seq4 h.symm) .rotCall ts

theorem runTurns_clrAll_cons (h : s.seq = Code.clrAll) (ts : List Turn) :
    runTurns (.sequencer :: ts) s = runTurns ts (s.clearAllPend.goto Code.ret) :=
  runTurns_sequencer_cons (i := .clrAll) (congrArg CodeWord.seq4 h.symm) .clrAll ts

theorem runTurns_ret_cons (h : s.seq = Code.ret) (ts : List Turn) :
    runTurns (.sequencer :: ts) s = runTurns ts s.returnFromInterrupt :=
  runTurns_sequencer_cons (i := .ret) (congrArg CodeWord.seq4 h.symm) .ret ts

/-- With rising sense a RISE of the low button line sets its level and its flag (R140). -/
theorem runTurns_riseButton_cons (low : s.lineRead .buttonArray = false) (rising : edgeIsRising s .buttonArray = true)
    (ts : List Turn) :
    runTurns (.environment 0b10#2 :: ts) s = runTurns ts { s with
      lvl := setLineBit s.lvl .buttonArray true
      pend := setLineBit s.pend .buttonArray true } :=
  runTurns_environment_cons (w := 0b10#2) (.riseRising (l := .buttonArray) low rising) ts

end Sys2Proof.Machine

/-! ## The obligations -/

open Sys2Proof Sys2Proof.Machine

/-- Settles O54: both orders run the same three operations and the same RISE, which sets the flag of the button line;
CLR_ALL, when it comes after, clears it, and when it comes before, leaves it to the next acceptance. -/
theorem coincidentEdgeDroppedOrKeptByOrder : Obligations.CoincidentEdgeDroppedOrKeptByOrder := by
  intro s hseq hie hedge hlow
  have rising : edgeIsRising s .buttonArray = true := by simp [edgeIsRising, hedge]
  constructor
  · have hrun := calc
      runTurns [.environment 0b10#2, .sequencer, .sequencer, .sequencer] s
      _ = runTurns [.sequencer, .sequencer, .sequencer] _ := runTurns_riseButton_cons hlow rising _
      _ = runTurns [.sequencer, .sequencer] _ := runTurns_rotCall_cons (by exact hseq) _
      _ = runTurns [.sequencer] _ := runTurns_clrAll_cons (by rfl) _
      _ = runTurns [] _ := runTurns_ret_cons (by rfl) _
    exact ⟨_, hrun, rfl, by simp [quiescent], lineBit_setLineBit_same s.lvl .buttonArray true, by simp⟩
  · have hrun := calc
      runTurns [.sequencer, .sequencer, .environment 0b10#2, .sequencer] s
      _ = runTurns [.sequencer, .environment 0b10#2, .sequencer] _ := runTurns_rotCall_cons hseq _
      _ = runTurns [.environment 0b10#2, .sequencer] _ := runTurns_clrAll_cons (by rfl) _
      _ = runTurns [.sequencer] _ := runTurns_riseButton_cons (by exact hlow) (by exact rising) _
      _ = runTurns [] _ := runTurns_ret_cons (by rfl) _
    have flag : setLineBit 0b00#2 .buttonArray true = 0b01#2 := by decide
    refine ⟨_, hrun, flag, rfl, ?_, lineBit_setLineBit_same s.lvl .buttonArray true, by simp⟩
    rw [turnEnabled_of_idle rfl, acceptEnabled_iff]
    exact ⟨rfl, .buttonArray, by simp [hie], lineBit_setLineBit_same 0b00#2 .buttonArray true⟩

/-- Settles O37: the handler's operations leave the flags unread, and CLR_ALL overwrites them. -/
theorem edgesDuringHandlerDropped : Obligations.EdgesDuringHandlerDropped := by
  refine ⟨fun i s flags hi => ?_, fun s flags => rfl⟩
  obtain ⟨t, e⟩ := exists_effect i s
  rw [exec_of_effect e]
  exact exec_of_effect (e.pend_unread hi flags)

/-- Settles O14: the acceptance is the enabling condition of IDLE, and taking the interrupt its effect. -/
theorem idleTakesInterrupt : Obligations.IdleTakesInterrupt := by
  refine ⟨decode_encode .idle, fun s hseq => ?_, fun s l hgie hie hpend => ?_⟩
  · rw [turnEnabled_of_idle hseq]
    exact acceptEnabled_iff s
  · exact exec_of_effect (.idleTaken ((acceptEnabled_iff s).mpr ⟨hgie, l, hie, hpend⟩))

/-- Settles O15: the three effects of DISPATCH, written out. -/
theorem dispatchServicesOneLine : Obligations.DispatchServicesOneLine :=
  ⟨decode_encode .dispatch, fun _ button => exec_of_effect (.dispatchButton button),
    fun _ noButton encoder => exec_of_effect (.dispatchEncoder noButton encoder),
    fun _ noButton noEncoder => exec_of_effect (.dispatchNone noButton noEncoder)⟩

/-- Settles O16: the one effect of ROT_CALL, written out. -/
theorem rotCallInvokesHandlerOnce : Obligations.RotCallInvokesHandlerOnce :=
  ⟨decode_encode .rotCall, fun _ => exec_of_effect .rotCall⟩

/-- Settles O17: the one effect of CLR_ALL, written out. -/
theorem clrAllClearsEveryFlag : Obligations.ClrAllClearsEveryFlag :=
  ⟨decode_encode .clrAll, fun _ => exec_of_effect .clrAll⟩

/-- Settles O18: the one effect of RETURN, written out. -/
theorem returnReopensInterrupts : Obligations.ReturnReopensInterrupts :=
  ⟨decode_encode .ret, fun _ => exec_of_effect .ret⟩
end

section
/-! SUPPORT. The effects of the scan operations written out without their branches, and the run of a scan in which the
environment moves between the sequencer's turns (O19 to O21, O47). -/

namespace Sys2Proof.Machine

variable {s t u : State} {k n : Nat} {ts : List Turn}

/-! ## The pattern, and the count of the wait -/

/-- The LED bits of a transient pattern are the old ones; of its select bits that of the position alone is set (R73). -/
theorem getLsbD_transient (p : BitVec 8) (i : BitVec 2) (hk : k < 8) :
    (transient p i).getLsbD k = if k < 4 then p.getLsbD k else decide (k = 4 + i.toNat) := by
  have ledMask : ∀ k < 8, (0x0F#8).getLsbD k = decide (k < 4) := by decide
  have selectBit : ∀ i : BitVec 2, ∀ k < 8, (0x10#8 <<< i.toNat).getLsbD k = decide (k = 4 + i.toNat) := by decide
  rw [transient, BitVec.getLsbD_or, BitVec.getLsbD_and, ledMask k hk, selectBit i k hk]
  by_cases hled : k < 4
  · simp [hled, show k ≠ 4 + i.toNat by omega]
  · simp [hled]

theorem waitcntIfPresent_eq_ite (s : State) (value : Nat) :
    waitcntIfPresent s value = if s.params.tRelease = none then s.waitcnt else value := by
  by_cases hn : s.params.tRelease = none
  · simp [waitcntIfPresent, hn]
  · rw [waitcntIfPresent_of_bounded hn, if_neg hn]

/-! ## One effect for each operation -/

/-- The state that the sample of a position leaves when the line reads `level` (R118). -/
def State.sampled (s : State) (level : Bool) : State :=
  { s with
    any := s.any || level
    trace := s.trace ++ sampleEvents s.idx level
    idx := if s.idx = lastPosition then s.idx else nextPosition s.idx
    seq := if s.idx = lastPosition then Code.restore else Code.scanDrive }

/-- The state that the restore leaves (R120). -/
def State.afterRestore (s : State) : State :=
  { s.driveOut (restored s.out) with
    waitcnt := if s.params.tRelease = none then s.waitcnt else 0
    seq := if s.any then Code.awaitRelease else Code.clrAll }

theorem Effect.scanSample (s : State) : Effect s .scanSample (s.sampled (s.lineRead .buttonArray)) := by
  unfold State.sampled
  by_cases last : s.idx = lastPosition
  · rw [if_pos last, if_pos last]
    exact .sampleLast last
  · rw [if_neg last, if_neg last]
    exact .sampleNext last

theorem Effect.restore (s : State) : Effect s .restore s.afterRestore := by
  unfold State.afterRestore
  rw [← waitcntIfPresent_eq_ite]
  cases pressed : s.any with
  | false => exact .restoreUnpressed pressed
  | true => exact .restorePressed pressed

/-! ## A position of the scan under an interleaving -/

/-- An interleaving has its turn number `k + 1` of the sequencer, with interleavings before and after it. -/
theorem exists_interleaves_split (hts : interleaves (k + 1 + n) ts) :
    ∃ before after, ts = before ++ .sequencer :: after ∧ interleaves k before ∧ interleaves n after := by
  suffices ∃ before after, ts = before ++ .sequencer :: after ∧ before.count .sequencer = k by
    obtain ⟨before, after, rfl, hbefore⟩ := this
    exact ⟨before, after, rfl, interleaves_split hts hbefore⟩
  induction ts generalizing k with
  | nil => have := interleaves_nil.mp hts; omega
  | cons turn ts ih =>
    cases turn with
    | sequencer =>
      cases k with
      | zero => exact ⟨[], ts, rfl, rfl⟩
      | succ k =>
        obtain ⟨m, hm, hrest⟩ := interleaves_sequencer_cons.mp hts
        obtain rfl : m = k + 1 + n := by omega
        obtain ⟨before, after, rfl, hbefore⟩ := ih hrest
        exact ⟨.sequencer :: before, after, rfl, by simp [hbefore]⟩
    | environment w =>
      obtain ⟨before, after, rfl, hbefore⟩ := ih (interleaves_environment_cons.mp hts)
      exact ⟨.environment w :: before, after, rfl, by simp [hbefore]⟩
    | reset => exact absurd hts not_interleaves_reset_cons

/-- The state that SCAN_DRIVE and SCAN_SAMPLE leave when the line reads `level` in the second (R116, R118). -/
def State.scanPosition (s : State) (level : Bool) : State :=
  ((s.driveOut (transient s.out s.idx)).goto Code.scanSample).sampled level

theorem DriftsTo.sampled (d : DriftsTo s t) (level : Bool) : DriftsTo (s.sampled level) (t.sampled level) := by
  obtain ⟨levels, flags, count, rfl⟩ := d
  exact ⟨levels, flags, count, rfl⟩

theorem DriftsTo.trans (d : DriftsTo s t) (d' : DriftsTo t u) : DriftsTo s u := by
  obtain ⟨_, _, _, rfl⟩ := d
  obtain ⟨levels, flags, count, rfl⟩ := d'
  exact ⟨levels, flags, count, rfl⟩

/-- An operation that reads no line takes one turn, and the environment, before it or after, makes it drift only. -/
theorem runTurns_of_ignoresLines {i : Instr} {s' : State} (d : DriftsTo s t) (hi : ignoresLines i = true)
    (selected : encode i = .seq4 s.seq) (e : Effect s i s') (hts : interleaves 1 ts) :
    ∃ u, DriftsTo s' u ∧ ∀ rest, runTurns (ts ++ rest) t = runTurns rest u := by
  obtain ⟨t', e', d'⟩ := d.operation hi e
  have selects : SelectsAll t [i] := .cons (selected.trans (congrArg CodeWord.seq4 d.seq_eq.symm)) e' .nil
  obtain ⟨_, u, hexec, du, hrun⟩ := runTurns_of_selectsAll selects (by simpa using hi) hts
  obtain rfl : t' = _ := by simpa [execAll, exec_of_effect e'] using hexec
  exact ⟨u, d'.trans du, hrun⟩

/-- A position of the scan takes two turns, whatever the environment does before either (R116, R118). -/
theorem runTurns_scanPosition (d : DriftsTo s t) (hseq : s.seq = Code.scanDrive) (hts : interleaves (1 + 1 + k) ts) :
    ∃ level u after, DriftsTo (s.scanPosition level) u ∧ interleaves k after ∧
      ∀ rest, runTurns (ts ++ rest) t = runTurns (after ++ rest) u := by
  obtain ⟨before, after, rfl, hbefore, hafter⟩ := exists_interleaves_split hts
  obtain ⟨v, dv, hdrive⟩ := runTurns_of_ignoresLines (i := .scanDrive) d rfl (congrArg _ hseq.symm) .scanDrive hbefore
  refine ⟨v.lineRead .buttonArray, _, after, dv.sampled _, hafter, fun rest => ?_⟩
  calc runTurns (before ++ .sequencer :: after ++ rest) t
      _ = runTurns (.sequencer :: after ++ rest) v := by rw [List.append_assoc]; exact hdrive _
      _ = runTurns (after ++ rest) (v.sampled (v.lineRead .buttonArray)) :=
        runTurns_sequencer_cons (i := .scanSample) (congrArg CodeWord.seq4 dv.seq_eq.symm) (.scanSample v) _

/-! ## The whole scan -/

/-- What a position of the scan records: its byte, the sample, and a report when it is asserted (R116, R118). -/
def positionEvents (leds : BitVec 4) (position : BitVec 2) (level : Bool) : List Event :=
  .srWrite ((1#4 <<< position.toNat) ++ leds) :: sampleEvents position level

/-- The state that a scan of the four levels leaves (R116 to R121). -/
def State.scanned (s : State) (s0 s1 s2 s3 : Bool) : State :=
  { s with
    idx := 3#2
    any := s.any || s0 || s1 || s2 || s3
    trace := s.trace ++ scanTrace s.params.leds s0 s1 s2 s3
    out := s.params.defaultPattern
    srvis := s.params.defaultPattern
    waitcnt := if s.params.tRelease = none then s.waitcnt else 0
    seq := if s.any || s0 || s1 || s2 || s3 then Code.awaitRelease else Code.clrAll }

/-- A position before the last sends its own select bit over the LED bits, records its sample and moves on (R118). -/
theorem scanPosition_of_more {i : BitVec 2} {sel : BitVec 4} (hidx : s.idx = i) (hout : s.out = sel ++ s.params.leds)
    (more : i ≠ lastPosition) (level : Bool) :
    s.scanPosition level = { s with
      out := (1#4 <<< i.toNat) ++ s.params.leds
      srvis := (1#4 <<< i.toNat) ++ s.params.leds
      trace := s.trace ++ positionEvents s.params.leds i level
      any := s.any || level
      idx := nextPosition i
      seq := Code.scanDrive } := by
  simp [State.scanPosition, State.sampled, positionEvents, more, hidx, hout, transient_append]

/-- The last position keeps `IDX` and leads to the restore, which sends the LED bits alone (R118, R120). -/
theorem afterRestore_scanPosition_of_last {sel : BitVec 4} (hout : s.out = sel ++ s.params.leds)
    (last : s.idx = lastPosition) (level : Bool) :
    (s.scanPosition level).afterRestore = { s with
      out := s.params.defaultPattern
      srvis := s.params.defaultPattern
      trace := s.trace ++ positionEvents s.params.leds s.idx level ++ [.srWrite (0#4 ++ s.params.leds)]
      any := s.any || level
      waitcnt := if s.params.tRelease = none then s.waitcnt else 0
      seq := if s.any || level then Code.awaitRelease else Code.clrAll } := by
  simp [State.scanPosition, State.sampled, State.afterRestore, positionEvents, last, hout, transient_append,
    restored_append, Params.defaultPattern]

theorem scanTrace_eq_positions (leds : BitVec 4) (s0 s1 s2 s3 : Bool) :
    scanTrace leds s0 s1 s2 s3 = positionEvents leds 0#2 s0 ++ positionEvents leds 1#2 s1 ++
      positionEvents leds 2#2 s2 ++ positionEvents leds 3#2 s3 ++ [.srWrite (0#4 ++ leds)] := by
  simp [scanTrace, positionEvents, sampleEvents]

/-- A scan takes nine turns of the sequencer, whatever is read and whatever the environment does between them (R115). -/
theorem runTurns_scan {sel : BitVec 4} (hseq : s.seq = Code.scanDrive) (hidx : s.idx = 0#2)
    (hout : s.out = sel ++ s.params.leds) (hts : interleaves 9 ts) :
    ∃ s0 s1 s2 s3 t, DriftsTo (s.scanned s0 s1 s2 s3) t ∧ ∀ rest, runTurns (ts ++ rest) s = runTurns rest t := by
  obtain ⟨s0, _, _, d, hts, run0⟩ := runTurns_scanPosition (k := 7) (.refl s) hseq hts
  rw [scanPosition_of_more hidx hout (by decide)] at d
  obtain ⟨s1, _, _, d, hts, run1⟩ := runTurns_scanPosition (k := 5) d rfl hts
  rw [scanPosition_of_more (i := 1#2) rfl rfl (by decide)] at d
  obtain ⟨s2, _, _, d, hts, run2⟩ := runTurns_scanPosition (k := 3) d rfl hts
  rw [scanPosition_of_more (i := 2#2) rfl rfl (by decide)] at d
  obtain ⟨s3, _, _, d, hts, run3⟩ := runTurns_scanPosition (k := 1) d rfl hts
  obtain ⟨t, d, runRestore⟩ := runTurns_of_ignoresLines d rfl rfl (.restore _) hts
  rw [afterRestore_scanPosition_of_last rfl rfl] at d
  refine ⟨s0, s1, s2, s3, t, ?_, fun rest => by rw [run0, run1, run2, run3, runRestore]⟩
  rw [State.scanned, scanTrace_eq_positions]
  simp only [← List.append_assoc]
  exact d

end Sys2Proof.Machine

/-! ## The obligations -/

open Sys2Proof Sys2Proof.Machine

/-- Settles O47: under every interleaving the nine turns come to the scan of the levels read, up to a drift. -/
theorem scanUnderAnyInterleaving : Obligations.ScanUnderAnyInterleaving := by
  intro s ts sel hseq hidx hany hout hts
  obtain ⟨s0, s1, s2, s3, t, ⟨levels, flags, count, rfl⟩, hrun⟩ := runTurns_scan hseq hidx hout hts
  have pressed : (s.scanned s0 s1 s2 s3).any = (s0 || s1 || s2 || s3) := by simp [State.scanned, hany]
  exact ⟨_, s0, s1, s2, s3, runTurns_eq_next hrun, rfl, pressed, rfl, rfl, rfl, rfl, rfl⟩

/-- Settles O19: the one effect of SCAN_DRIVE, written out, and the bits of the transient pattern. -/
theorem scanDriveAssertsOneSelectBit : Obligations.ScanDriveAssertsOneSelectBit :=
  ⟨decode_encode .scanDrive, fun _ => exec_of_effect .scanDrive, fun p i _ hk => getLsbD_transient p i hk⟩

/-- Settles O20: the effect of SCAN_SAMPLE, the sample and its report written as one list. -/
theorem scanSampleRecordsAndReports : Obligations.ScanSampleRecordsAndReports := by
  refine ⟨decode_encode .scanSample, fun s => ?_⟩
  rw [List.append_assoc]
  exact exec_of_effect (.scanSample s)

/-- Settles O21: the effect of RESTORE. -/
theorem restoreClearsSelectBits : Obligations.RestoreClearsSelectBits :=
  ⟨decode_encode .restore, fun s => exec_of_effect (.restore s)⟩
end

section
/-! SUPPORT. The effects of a poll by the bound on the wait, and the runs of a wait with the sense line held high:
without a bound under every interleaving that does not let the line go, and with one to its timeout (O22, O23, O51,
O52). -/

namespace Sys2Proof.Machine

variable {s t origin : State} {i : Instr} {w : BitVec 2} {l : Line} {n k polls : Nat}

/-! ## One poll, without a bound and with one -/

theorem waitExpired_of_unbounded (hn : s.params.tRelease = none) : waitExpired s = false := by
  simp [waitExpired, hn]

theorem waitExpired_of_bounded (hn : s.params.tRelease = some n) : waitExpired s = decide (s.waitcnt = n) := by
  simp [waitExpired, hn, beq_eq_decide]

/-- Without a bound an asserted poll is recorded and nothing else: the wait goes on (R130). -/
theorem Effect.pollHeld_of_unbounded (hn : s.params.tRelease = none) (high : s.lineRead .buttonArray = true) :
    Effect s .awaitRelease ((s.emit (.poll true)).goto Code.awaitRelease) := by
  have hcount : waitcntIfPresent s (s.waitcnt + 1) = s.waitcnt := by rw [waitcntIfPresent_eq_ite, if_pos hn]
  have e := Effect.pollHeld high (waitExpired_of_unbounded hn)
  rw [hcount] at e
  exact e

/-- The state that an asserted poll below the bound leaves (R132). -/
def State.countPoll (s : State) : State :=
  { s.emit (.poll true) with waitcnt := s.waitcnt + 1 }.goto Code.awaitRelease

/-- Below the bound an asserted poll is recorded and counted: the wait goes on (R132). -/
theorem Effect.pollHeld_of_bounded (hn : s.params.tRelease = some n) (high : s.lineRead .buttonArray = true)
    (more : s.waitcnt ≠ n) : Effect s .awaitRelease s.countPoll := by
  have e := Effect.pollHeld high (by simpa [waitExpired_of_bounded hn] using more)
  rw [waitcntIfPresent_of_bounded (by simp [hn])] at e
  exact e

/-- At the bound an asserted poll ends the wait by the timeout (R132). -/
theorem Effect.pollExpired_of_bounded (hn : s.params.tRelease = some n) (high : s.lineRead .buttonArray = true)
    (last : s.waitcnt = n) :
    Effect s .awaitRelease (((s.emit (.poll true)).emit .releaseTimeout).goto Code.clrAll) :=
  .pollExpired high (by simpa [waitExpired_of_bounded hn] using last)

/-! ## The unbounded wait under an interleaving -/

/-- A high line stays high until its own FALL (R141, R144). -/
theorem Effect.lineRead_stays_high (h : Effect s i t) (hi : i ≠ .fall l) (high : s.lineRead l = true) :
    t.lineRead l = true := by
  cases h with
  | @riseRising k | @riseFree k =>
    by_cases hk : l = k
    · subst hk
      exact lineBit_setLineBit_same _ _ _
    · exact (lineBit_setLineBit_other _ _ _ _ hk).trans high
  | @fallRising k | @fallFree k =>
    have hk : l ≠ k := fun hk => hi (hk ▸ rfl)
    exact (lineBit_setLineBit_other _ _ _ _ hk).trans high
  | _ => exact high

theorem decodeEvt2_ne_fall_buttonArray (hw : w ≠ 0b00#2) : decodeEvt2 w ≠ .fall .buttonArray := by
  revert w; decide

/-- `Held origin polls k s`: `s` is in an unbounded wait that began at `origin`, the line held high since; when `k` more
polls are recorded there are `polls` of them. -/
structure Held (origin : State) (polls k : Nat) (s : State) : Prop where
  waiting : s.seq = Code.awaitRelease
  unbounded : s.params.tRelease = none
  high : s.lineRead .buttonArray = true
  gie : s.gie = origin.gie
  out : s.out = origin.out
  trace : s.trace ++ List.replicate k (.poll true) = origin.trace ++ List.replicate polls (.poll true)

namespace Held

/-- The sequencer's turn is one of the asserted polls (R130). -/
theorem operation (h : Held origin polls (k + 1) s) :
    ∃ i t, encode i = .seq4 s.seq ∧ Effect s i t ∧ Held origin polls k t := by
  refine ⟨.awaitRelease, _, congrArg CodeWord.seq4 h.waiting.symm, .pollHeld_of_unbounded h.unbounded h.high, ?_⟩
  have htrace : s.trace ++ [.poll true] ++ List.replicate k (.poll true) =
      origin.trace ++ List.replicate polls (.poll true) := by
    rw [← h.trace, List.replicate_succ, ← List.append_cons]
  exact ⟨rfl, h.unbounded, h.high, h.gie, h.out, htrace⟩

/-- An event other than the FALL of the sense line leaves the wait as it is (R144). -/
theorem event (h : Held origin polls k s) (hw : w ≠ 0b00#2) (e : Effect s (decodeEvt2 w) t) :
    Held origin polls k t := by
  have high := e.lineRead_stays_high (decodeEvt2_ne_fall_buttonArray hw) h.high
  rw [e.event_frame (isSequencer_decodeEvt2 w)] at high ⊢
  exact ⟨h.waiting, h.unbounded, high, h.gie, h.out, h.trace⟩

end Held

/-! ## The bounded wait -/

/-- With the line held high and the bound `k` polls away, `k + 1` turns of the sequencer end the wait by the timeout. -/
theorem runSequencer_of_boundedWait (selected : encode .awaitRelease = .seq4 s.seq) (hn : s.params.tRelease = some n)
    (high : s.lineRead .buttonArray = true) (hk : s.waitcnt + k = n) :
    runSequencer (k + 1) s = .next { s with
      agenda := []
      seq := Code.clrAll
      waitcnt := n
      trace := s.trace ++ List.replicate (k + 1) (.poll true) ++ [.releaseTimeout] } := by
  induction k generalizing s with
  | zero =>
    obtain rfl : s.waitcnt = n := hk
    exact runSequencer_succ selected (.pollExpired_of_bounded hn high rfl) 0
  | succ k ih =>
    have more : s.waitcnt ≠ n := by omega
    have hcount : s.waitcnt + 1 + k = n := by omega
    rw [runSequencer_succ selected (.pollHeld_of_bounded hn high more), ih (s := s.countPoll) rfl hn high hcount,
      List.replicate_succ (n := k + 1), List.append_cons s.trace]
    rfl

end Sys2Proof.Machine

/-! ## The obligations -/

open Sys2Proof Sys2Proof.Machine

/-- Settles O51: the held wait is kept by every poll and by every event that is allowed. -/
theorem heldButtonBlocksForever : Obligations.HeldButtonBlocksForever := by
  intro s ts k hseq hn high hts hfall
  obtain ⟨t, h, hrun⟩ := runTurns_interleaved (P := Held s k) (allowed := (· ≠ 0b00#2)) (fun _ _ => Held.operation)
    (fun _ _ _ _ h => h.event) ⟨hseq, hn, high, rfl, rfl, rfl⟩ hts fun w hw h => hfall (h ▸ hw)
  have htrace : t.trace = s.trace ++ List.replicate k (.poll true) := by simpa using h.trace
  exact ⟨_, runTurns_eq_next hrun, h.waiting, h.gie, h.out, h.high, htrace⟩

/-- Settles O52: at a count of 0 the bound is `n` polls away. -/
theorem boundedWaitEnds : Obligations.BoundedWaitEnds := by
  intro s n hseq hn hcount high
  exact runSequencer_of_boundedWait (congrArg CodeWord.seq4 hseq.symm) hn high (by omega)

/-- Settles O22: a low line ends the wait, and a high one, the wait having no bound, keeps it. -/
theorem awaitReleasePollsUntilLow : Obligations.AwaitReleasePollsUntilLow := by
  refine ⟨decode_encode .awaitRelease, fun s hn => ?_⟩
  cases level : s.lvl.getLsbD 0 with
  | false => exact exec_of_effect (.pollReleased level)
  | true => exact exec_of_effect (.pollHeld_of_unbounded hn level)

/-- Settles O23: the three effects of AWAIT_RELEASE, the bound written out. -/
theorem awaitReleaseBoundedVariant : Obligations.AwaitReleaseBoundedVariant := by
  refine fun s n hn => ⟨fun low => ?_, fun high last => ?_, fun high more => ?_⟩
  · exact exec_of_effect (.pollReleased low)
  · rw [List.append_cons]
    exact exec_of_effect (.pollExpired_of_bounded hn high last)
  · exact exec_of_effect (.pollHeld_of_bounded hn high more)
end

section
/-! SUPPORT. When an event is enabled, the sense of a line, and the range of what RESET leaves in `WAITCNT` (O24 to
O27). -/

namespace Sys2Proof.Machine

variable {s : State} {w : BitVec 2} {l : Line} {n : Nat}

/-- A RISE is enabled exactly when its line is low (R140). -/
theorem turnEnabled_of_rise (hw : decodeEvt2 w = .rise l) : turnEnabled s (.environment w) = !s.lineRead l := by
  simp [turnEnabled, hw]

/-- A FALL is enabled exactly when its line is high (R141). -/
theorem turnEnabled_of_fall (hw : decodeEvt2 w = .fall l) : turnEnabled s (.environment w) = s.lineRead l := by
  simp [turnEnabled, hw]

theorem edgeIsRising_eq_true_iff : edgeIsRising s l = true ↔ lineBit s.edge l = false := by
  simp [edgeIsRising]

theorem edgeIsRising_eq_false_iff : edgeIsRising s l = false ↔ lineBit s.edge l = true := by
  simp [edgeIsRising]

/-- RESET leaves `WAITCNT`, where it exists, within its range (R26, R143). -/
theorem State.takeReset_waitcnt_le (hn : s.params.tRelease = some n) : s.takeReset.waitcnt ≤ n := by
  have hdraw : s.takeReset.waitcnt = Config.resetWaitcnt s.draws % (n + 1) := by
    simp [State.takeReset, resetWaitcnt, hn]
  rw [hdraw]
  exact Nat.le_of_lt_succ (Nat.mod_lt _ n.succ_pos)

end Sys2Proof.Machine

/-! ## The obligations -/

open Sys2Proof Sys2Proof.Machine

/-- Settles O24: the enabling condition of RISE for each line, and its effect with rising sense, written out. -/
theorem riseSetsLevelAndFlag : Obligations.RiseSetsLevelAndFlag :=
  ⟨decode_encode (.rise .buttonArray), decode_encode (.rise .encoderA),
    fun _ => turnEnabled_of_rise (l := .buttonArray) rfl, fun _ => turnEnabled_of_rise (l := .encoderA) rfl,
    fun _ low sense => exec_of_effect (.riseRising (l := .buttonArray) low (edgeIsRising_eq_true_iff.mpr sense)),
    fun _ low sense => exec_of_effect (.riseRising (l := .encoderA) low (edgeIsRising_eq_true_iff.mpr sense))⟩

/-- Settles O25: the enabling condition of FALL for each line, and its effect with rising sense, written out. -/
theorem fallLowersLevelOnly : Obligations.FallLowersLevelOnly :=
  ⟨decode_encode (.fall .buttonArray), decode_encode (.fall .encoderA),
    fun _ => turnEnabled_of_fall (l := .buttonArray) rfl, fun _ => turnEnabled_of_fall (l := .encoderA) rfl,
    fun _ high sense => exec_of_effect (.fallRising (l := .buttonArray) high (edgeIsRising_eq_true_iff.mpr sense)),
    fun _ high sense => exec_of_effect (.fallRising (l := .encoderA) high (edgeIsRising_eq_true_iff.mpr sense))⟩

/-- Settles O26: the effects of the two events while the sense is not rising, the drawn flag written out. -/
theorem nonRisingSenseLeavesFlagFree : Obligations.NonRisingSenseLeavesFlagFree := by
  intro s l sense
  have falling : edgeIsRising s l = false := edgeIsRising_eq_false_iff.mpr sense
  exact ⟨fun low => exec_of_effect (.riseFree low falling), fun high => exec_of_effect (.fallFree high falling)⟩

/-- Settles O27: a reset turn takes RESET with the turn used up, whatever `SEQ` holds; its fields are the
claimed ones, and `WAITCNT` is within its range. -/
theorem resetEventFromAnyState : Obligations.ResetEventFromAnyState := by
  intro s rest hagenda
  have hstep : step s = .next s.advance.takeReset := step_of_turn_reset (State.turn_of_agenda_cons hagenda)
  have hrest : s.advance.takeReset.agenda = rest := by simp [hagenda]
  have hwait : ∀ n, s.params.tRelease = some n → s.advance.takeReset.waitcnt ≤ n :=
    fun _ hn => State.takeReset_waitcnt_le (s := s.advance) hn
  exact ⟨_, hstep, rfl, rfl, rfl, rfl, rfl, hrest, rfl, rfl, rfl, rfl, rfl, rfl, rfl, hwait, rfl⟩
end

section
/-! SUPPORT. What each collaborator answers, one equation per case of its contract (O56 to O58). -/

namespace Sys2Proof.Machine

variable {c : Surroundings}

/-! ## The button-identity callback -/

/-- From 4 on an index has the fallback label (R154). -/
theorem buttonLabel_of_four_le {i : Nat} (h : 4 ≤ i) : buttonLabel i = Config.unrecognizedLabel := by
  match i, h with
  | _ + 4, _ => rfl

/-- The label's row is below the primary one (R155). -/
theorem primaryRow_lt_labelRow : Config.primaryRow < Config.primaryRow + 1 + Config.labelRowGap := by
  omega

/-! ## The rotation handler -/

/-- The handler runs on the answer to the one query, and counts it (R157). -/
@[simp] theorem Surroundings.absorb_rotInvoke (answers : Nat → RotationDirection) (c : Surroundings) :
    c.absorb answers .rotInvoke = rotationHandler (answers c.queries) { c with queries := c.queries + 1 } := rfl

@[simp] theorem rotationHandler_clockwise (c : Surroundings) :
    rotationHandler .clockwise c = voltageRenderer { c with counter := roundToSingle (c.counter + rotationStep) } := rfl

@[simp] theorem rotationHandler_none (c : Surroundings) : rotationHandler .none c = .ok c := rfl

theorem rotationHandler_counterClockwise_of_pos (h : 0 < c.counter) :
    rotationHandler .counterClockwise c =
      voltageRenderer { c with counter := roundToSingle (c.counter - rotationStep) } := if_pos h

theorem rotationHandler_counterClockwise_of_nonpos (h : c.counter ≤ 0) :
    rotationHandler .counterClockwise c = .ok c := if_neg h.not_gt

/-! ## The renderer -/

/-- A readout longer than its field stops the renderer (R160, assumption 10). -/
theorem voltageRenderer_of_overlong (h : fieldWidth < (readoutText c.counter).length) :
    voltageRenderer c = .error (.overlong (readoutText c.counter)) := if_pos h

/-- A readout that fits is written to end at the field's end, whether right alignment pads it or offsets it (R160). -/
theorem voltageRenderer_of_fits (h : (readoutText c.counter).length ≤ fieldWidth) :
    ∃ pad column, column + pad + (readoutText c.counter).length = fieldWidth ∧
      voltageRenderer c =
        .ok (c.writeText (List.replicate pad ' ' ++ readoutText c.counter) Config.primaryRow column) := by
  have hfits : ¬ fieldWidth < (readoutText c.counter).length := h.not_gt
  cases hpads : Config.padsReadout with
  | true => exact ⟨fieldWidth - (readoutText c.counter).length, 0, by omega, by simp [voltageRenderer, hfits, hpads]⟩
  | false => exact ⟨0, fieldWidth - (readoutText c.counter).length, by omega, by simp [voltageRenderer, hfits, hpads]⟩

/-- The one stop of the renderer is the overlong readout, and it names the text (R160, R163). -/
theorem voltageRenderer_eq_error_iff {text : List Char} :
    voltageRenderer c = .error (.overlong text) ↔
      fieldWidth < (readoutText c.counter).length ∧ text = readoutText c.counter := by
  rcases le_or_gt (readoutText c.counter).length fieldWidth with hfits | hlong
  · obtain ⟨_, _, _, hwrites⟩ := voltageRenderer_of_fits hfits
    simp [hwrites, hfits.not_gt]
  · simp [voltageRenderer_of_overlong hlong, hlong, eq_comm]

/-- What the renderer writes, when it writes, ends at the field's end (R160). -/
theorem voltageRenderer_ok_cases {d : Surroundings} (h : voltageRenderer c = .ok d) :
    ∃ pad column, column + pad + (readoutText c.counter).length = fieldWidth ∧
      d = c.writeText (List.replicate pad ' ' ++ readoutText c.counter) Config.primaryRow column := by
  rcases le_or_gt (readoutText c.counter).length fieldWidth with hfits | hlong
  · obtain ⟨pad, column, hends, hwrites⟩ := voltageRenderer_of_fits hfits
    exact ⟨pad, column, hends, Except.ok.inj (h.symm.trans hwrites)⟩
  · cases h.symm.trans (voltageRenderer_of_overlong hlong)

end Sys2Proof.Machine

/-! ## The obligations -/

open Sys2Proof Sys2Proof.Machine

/-- Settles O56: the row and the column are the constants of the callback, and the labels are the table's. -/
theorem buttonCallbackWritesLabel : Obligations.ButtonCallbackWritesLabel :=
  ⟨⟨_, Config.labelColumn, primaryRow_lt_labelRow, fun _ _ => rfl⟩, rfl, rfl, rfl, rfl,
    fun _ h => buttonLabel_of_four_le h⟩

/-- Settles O57: the handler's equation for each answer, counter-clockwise split at a Counter above zero. -/
theorem rotationHandlerContract : Obligations.RotationHandlerContract := by
  refine ⟨fun _ _ ha => ?_, fun _ _ ha hpos => ?_, fun _ _ ha hnonpos => ?_, fun _ _ ha => ?_⟩ <;>
    rw [Surroundings.absorb_rotInvoke, ha]
  · exact rotationHandler_clockwise _
  · exact rotationHandler_counterClockwise_of_pos hpos
  · exact rotationHandler_counterClockwise_of_nonpos hnonpos
  · exact rotationHandler_none _

/-- Settles O58: a readout that is written fits its field and ends at the field's end; the stop is the overlong one. -/
theorem rendererRightAligns : Obligations.RendererRightAligns := by
  refine ⟨fun c d h => ?_, fun _ _ => voltageRenderer_eq_error_iff⟩
  obtain ⟨pad, column, hends, hd⟩ := voltageRenderer_ok_cases h
  exact ⟨pad, column, hd, hends⟩
end

section
/-! SUPPORT. The one trap entry, the contexts, and the alternation of `Enter` and `Return` in a history (O8, O33, O34,
O44). -/

namespace Sys2Proof.Machine

variable {s t : State} {i : Instr} {p : Params} {ph ph' : TracePhase} {e : Event} {es : List Event}

/-! ## Traps are taken by IDLE alone -/

/-- The acceptance of an interrupt is the one effect that records `Enter` (R185). -/
theorem Effect.of_records_enter (h : Effect s i t) (htrace : t.trace = s.trace ++ [.enter]) :
    i = .idle ∧ acceptEnabled s = true ∧ t = s.takeInterrupt := by
  cases h with
  | idleTaken enabled => exact ⟨rfl, enabled, rfl⟩
  | sampleLast | sampleNext => simp [sampleEvents] at htrace
  | _ => simp at htrace

theorem lineBit_and (r q : BitVec 2) (l : Line) : lineBit (r &&& q) l = (lineBit r l && lineBit q l) :=
  BitVec.getLsbD_and

/-- An interrupt is accepted only where an enabled source is pending (R100). -/
theorem and_ne_zero_of_acceptEnabled (h : acceptEnabled s = true) : s.pend &&& s.ie ≠ 0b00#2 := by
  obtain ⟨-, l, hie, hpend⟩ := (acceptEnabled_iff s).mp h
  exact (ne_zero_iff_exists_lineBit _).mpr ⟨l, by rw [lineBit_and, hpend, hie]; rfl⟩

/-! ## Changes of context -/

/-- A sequencer operation keeps the context, but for CFG_EN, the acceptance of an interrupt and RETURN (R192). -/
theorem Effect.context_cases (h : Effect s i t) (hi : encode i = .seq4 s.seq) :
    contextOf t.seq = contextOf s.seq ∨
    (s.seq = Code.cfgEn ∧ t.seq = Code.idle) ∨
    (s.seq = Code.idle ∧ acceptEnabled s = true ∧ t.seq = Code.dispatch) ∨
    (s.seq = Code.ret ∧ t.seq = Code.idle) := by
  cases h <;> simp only [encode, CodeWord.seq4.injEq, reduceCtorEq] at hi
  case cfgEn => exact .inr (.inl ⟨hi.symm, rfl⟩)
  case idleTaken enabled => exact .inr (.inr (.inl ⟨hi.symm, enabled, rfl⟩))
  case ret => exact .inr (.inr (.inr ⟨hi.symm, rfl⟩))
  case idleHeld => exact .inl rfl
  all_goals
    rw [← hi]
    exact .inl rfl

/-! ## `Enter` and `Return` alternate -/

/-- Whether a phase lies between an `Enter` and the `Return` that ends its invocation. -/
def inInvocation : TracePhase → Bool
  | .entered => true
  | ph => inService ph

theorem inInvocation_of_inService (h : inService ph = true) : inInvocation ph = true := by
  unfold inInvocation
  split
  · rfl
  · exact h

/-- An allowed event is an `Enter` outside an invocation, a `Return` inside one, or leaves which of the two it is
(R187). -/
theorem Follows.alternates_cons (h : Follows p ph e ph') (rest : alternates (inInvocation ph') es) :
    alternates (inInvocation ph) (e :: es) := by
  cases h with
  | enter | ret => exact ⟨rfl, rest⟩
  | sampleLow | report =>
    rw [inInvocation_of_inService (inService_afterPosition _ _)] at rest
    exact rest
  | _ => exact rest

theorem alternates_of_traceRun {last : TracePhase} (h : traceRun p ph es = some last) :
    alternates (inInvocation ph) es := by
  induction es generalizing ph with
  | nil => trivial
  | cons e es ih =>
    obtain ⟨ph', follows, hrest⟩ := traceRun_cons_eq_some_iff.mp h
    exact follows.alternates_cons (ih hrest)

end Sys2Proof.Machine

/-! ## The obligations -/

open Sys2Proof Sys2Proof.Machine

/-- Settles O33: RESET empties the history and an event leaves it, so the step is the sequencer's and its effect the
acceptance. -/
theorem trapTakenOnlyInIdle : Obligations.TrapTakenOnlyInIdle := by
  intro s t h htrace
  obtain ⟨-, rfl⟩ | ⟨i, ht, hi, e⟩ | ⟨w, -, e⟩ := step_agent_cases h
  · simp at htrace
  · obtain ⟨rfl, enabled, rfl⟩ := e.of_records_enter htrace
    have hseq : Code.idle = s.seq := CodeWord.seq4.inj hi
    exact ⟨ht, hseq.symm, ((acceptEnabled_iff s).mp enabled).1, and_ne_zero_of_acceptEnabled (s := s) enabled, rfl, rfl⟩
  · rw [e.event_frame (isSequencer_decodeEvt2 w)] at htrace
    simp at htrace

/-- Settles O34: RESET goes to BOOT_LOAD, an event leaves `SEQ`, and an operation changes the context in three places. -/
theorem contextTransitions : Obligations.ContextTransitions := by
  intro s t c hc h
  obtain ⟨ht, rfl⟩ | ⟨i, -, hi, e⟩ | ⟨w, -, e⟩ := step_agent_cases h
  · exact ⟨.boot, rfl, .inr (.inl ⟨ht, rfl⟩)⟩
  · obtain hsame | ⟨hs, ht⟩ | ⟨hs, enabled, ht⟩ | ⟨hs, ht⟩ := e.context_cases hi
    · exact ⟨c, hsame.trans hc, .inl rfl⟩
    all_goals
      rw [State.advance_seq] at hs
      rw [hs] at hc
      cases hc
      rw [ht, hs]
    · exact ⟨.main, rfl, .inr (.inr (.inl ⟨rfl, rfl, rfl⟩))⟩
    · exact ⟨.interrupt, rfl, .inr (.inr (.inr (.inl ⟨rfl, enabled, rfl, rfl⟩)))⟩
    · exact ⟨.main, rfl, .inr (.inr (.inr (.inr ⟨rfl, rfl, rfl⟩)))⟩
  · rw [e.event_frame (isSequencer_decodeEvt2 w)]
    exact ⟨c, hc, .inl rfl⟩

/-- Settles O44: the history runs from the start, which is outside an invocation. -/
theorem enterAndReturnAlternate : Obligations.EnterAndReturnAlternate := by
  rintro s ⟨ph, hrun, -⟩
  exact alternates_of_traceRun hrun

/-- Settles O8: the effects of an instruction leave no state out. -/
theorem everyInstructionAnswersNext : Obligations.EveryInstructionAnswersNext :=
  exec_answers
end

section
/-! SUPPORT. The state at BOOT_LOAD with a fresh history, and quiescence as an acceptance that is not enabled (O1, O39,
O40). -/

namespace Sys2Proof.Machine

variable {s : State}

/-- At BOOT_LOAD the registers are sound once the global enable is closed: every other clause is about a later state. -/
theorem RegistersSound.of_bootLoad (hseq : s.seq = Code.bootLoad) (hgie : s.gie = false) : RegistersSound s := by
  constructor <;> simp [hseq, hgie]

/-- At BOOT_LOAD the empty history is lawful. -/
theorem TraceSound.of_bootLoad (hseq : s.seq = Code.bootLoad) (htrace : s.trace = []) : TraceSound s := by
  refine ⟨.start, by rw [htrace]; rfl, ?_⟩
  simp [phaseFits, hseq]

/-- The acceptance, by the registers whole: interrupts are globally enabled and an enabled flag is set (R100). -/
theorem acceptEnabled_iff_and_ne_zero : acceptEnabled s = true ↔ s.gie = true ∧ s.pend &&& s.ie ≠ 0b00#2 := by
  rw [acceptEnabled_iff, ne_zero_iff_exists_lineBit]
  simp only [lineBit_and, Bool.and_eq_true, and_comm]

/-- The sequencer holds exactly in IDLE, where it does when the acceptance is not enabled (R79, R100). -/
theorem turnEnabled_sequencer_eq_false_iff :
    turnEnabled s .sequencer = false ↔ s.seq = Code.idle ∧ acceptEnabled s = false := by
  refine ⟨fun h => ?_, fun ⟨hseq, hno⟩ => (turnEnabled_of_idle hseq).trans hno⟩
  simpa using disabled_turn_cases h

/-- A state is quiescent exactly when it is at IDLE with the global enable open and nothing to accept (R227). -/
theorem quiescent_iff :
    quiescent s = true ↔ s.seq = Code.idle ∧ s.gie = true ∧ acceptEnabled s = false := by
  rw [← Bool.not_eq_true (acceptEnabled s), acceptEnabled_iff_and_ne_zero]
  simp +contextual [quiescent, and_assoc]

end Sys2Proof.Machine

/-! ## The obligations -/

open Sys2Proof Sys2Proof.Machine

/-- Settles O39: the sequencer holds where nothing can be accepted in IDLE; the global enable is what quiescence asks
for beyond that, and with sound registers it is open there. -/
theorem quiescentExactlyWhenSequencerHolds : Obligations.QuiescentExactlyWhenSequencerHolds := by
  intro s
  rw [turnEnabled_sequencer_eq_false_iff, quiescent_iff]
  refine ⟨fun ⟨hseq, _, hno⟩ => ⟨hseq, hno⟩, fun ⟨hseq, hno⟩ => ⟨hseq, ?_⟩, fun hs => ?_⟩
  · cases hgie : s.gie with
    | false => exact .inr rfl
    | true => exact .inl ⟨hseq, rfl, hno⟩
  · exact ⟨fun ⟨hseq, _, hno⟩ => ⟨hseq, hno⟩, fun ⟨hseq, hno⟩ => ⟨hseq, hs.globalEnable.mpr hseq, hno⟩⟩

/-- Settles O1: the fields of the reset state, and the context of its code. -/
theorem resetEntersBootMasked : Obligations.ResetEntersBootMasked :=
  ⟨rfl, rfl, rfl, rfl, rfl⟩

/-- Settles O40: the reset state is at BOOT_LOAD with the global enable closed and no history. -/
theorem resetMeetsInvariants : Obligations.ResetMeetsInvariants :=
  ⟨.of_bootLoad rfl rfl, .of_bootLoad rfl rfl⟩
end

section
/-! SUPPORT. The first two turns of an invocation, and the runs of one that is routed to the encoder and of an edge
between CFG_CLR and CFG_EN (O48, O53). -/

namespace Sys2Proof.Machine

variable {s : State} {l : Line}

theorem runTurns_cfgEn_cons (h : s.seq = Code.cfgEn) (ts : List Turn) :
    runTurns (.sequencer :: ts) s = runTurns ts ({ s with ie := 0b11#2, gie := true }.goto Code.idle) :=
  runTurns_sequencer_cons (i := .cfgEn) (congrArg CodeWord.seq4 h.symm) .cfgEn ts

/-- IDLE takes the interrupt of a line that is enabled and pending (R100). -/
theorem runTurns_idle_cons (hseq : s.seq = Code.idle) (hgie : s.gie = true) (hie : lineBit s.ie l = true)
    (hpend : lineBit s.pend l = true) (ts : List Turn) :
    runTurns (.sequencer :: ts) s = runTurns ts s.takeInterrupt :=
  runTurns_sequencer_cons (i := .idle) (congrArg CodeWord.seq4 hseq.symm)
    (.idleTaken ((acceptEnabled_iff s).mpr ⟨hgie, l, hie, hpend⟩)) ts

/-- With both bits of a register set that of every line is. -/
theorem lineBit_of_eq_ones {r : BitVec 2} (h : r = 0b11#2) (l : Line) : lineBit r l = true := by
  rw [h]
  cases l <;> rfl

/-- With both senses rising every sense is. -/
theorem edgeIsRising_of_bothRising (hedge : s.edge = 0b00#2) (l : Line) : edgeIsRising s l = true := by
  rw [edgeIsRising_eq_true_iff, hedge]
  cases l <;> rfl

end Sys2Proof.Machine

/-! ## The obligations -/

open Sys2Proof Sys2Proof.Machine

/-- Settles O48: IDLE and DISPATCH lead to ROT_CALL, and the three operations left read no line, so the environment
makes them drift only. -/
theorem encoderInvocationTakesFiveTurns : Obligations.EncoderInvocationTakesFiveTurns := by
  intro s ts hseq hgie hie hpend hts
  have noButton : lineBit s.takeInterrupt.pend .buttonArray = false := by simp [hpend]
  have encoder : lineBit s.takeInterrupt.pend .encoderA = true := by simp [hpend]
  have selects : SelectsAll ((s.takeInterrupt.clearPend .encoderA).goto Code.rotCall) [.rotCall, .clrAll, .ret] :=
    .cons rfl .rotCall (.cons rfl .clrAll (.cons rfl .ret .nil))
  obtain ⟨_, t, hexec, ⟨levels, flags, count, rfl⟩, hlast⟩ := runTurns_of_selectsAll selects (by decide) hts
  cases hexec
  have hrun := calc
    runTurns (.sequencer :: .sequencer :: ts) s
    _ = runTurns (.sequencer :: ts) s.takeInterrupt :=
      runTurns_idle_cons hseq hgie (lineBit_of_eq_ones hie .encoderA) encoder _
    _ = runTurns ts ((s.takeInterrupt.clearPend .encoderA).goto Code.rotCall) :=
      runTurns_sequencer_cons (i := .dispatch) rfl (.dispatchEncoder noButton encoder) ts
    _ = _ := runTurns_eq_next hlast
  exact ⟨_, hrun, rfl, rfl, rfl, rfl, by simp⟩

/-- Settles O53: the RISE sets the flag, CFG_EN leaves it and enables its line, and IDLE takes the interrupt. -/
theorem edgeBetweenClearAndEnableAccepted : Obligations.EdgeBetweenClearAndEnableAccepted := by
  intro s w l hw hseq hedge low
  obtain hw : decodeEvt2 w = .rise l := Except.ok.inj hw
  have rise : Effect s (decodeEvt2 w) { s with lvl := setLineBit s.lvl l true, pend := setLineBit s.pend l true } :=
    hw ▸ .riseRising low (edgeIsRising_of_bothRising hedge l)
  calc runTurns [.environment w, .sequencer, .sequencer] s
    _ = runTurns [.sequencer, .sequencer] _ := runTurns_environment_cons rise _
    _ = runTurns [.sequencer] _ := runTurns_cfgEn_cons (by exact hseq) _
    _ = runTurns [] _ :=
      runTurns_idle_cons (l := l) rfl rfl (lineBit_of_eq_ones rfl l) (lineBit_setLineBit_same s.pend l true) _
end

section
/-! SUPPORT. The invocation routed to the scanner: where its scan starts, what its last two operations leave, and its
run with the sense line held high for a number of polls and then released (O50). -/

namespace Sys2Proof.Machine

variable {s : State} {sel : BitVec 4} {ts : List Turn}

/-! ## The two ends of an invocation -/

/-- The state that IDLE and DISPATCH leave when the flag of `BUTTON_ARRAY` is serviced: the scan is due (R100, R101). -/
def State.scanStart (s : State) : State :=
  { s.takeInterrupt.clearPend .buttonArray with idx := 0#2, any := false }.goto Code.scanDrive

/-- The state that CLR_ALL and RETURN leave (R104, R106). -/
def State.closed (s : State) : State := (s.clearAllPend.goto Code.ret).returnFromInterrupt

theorem runTurns_dispatchButton_cons (hseq : s.seq = Code.dispatch) (button : lineBit s.pend .buttonArray = true)
    (ts : List Turn) :
    runTurns (.sequencer :: ts) s =
      runTurns ts ({ s.clearPend .buttonArray with idx := 0#2, any := false }.goto Code.scanDrive) :=
  runTurns_sequencer_cons (i := .dispatch) (congrArg CodeWord.seq4 hseq.symm) (.dispatchButton button) ts

theorem runTurns_scanStart (hseq : s.seq = Code.idle) (hgie : s.gie = true) (hie : s.ie = 0b11#2)
    (button : lineBit s.pend .buttonArray = true) (ts : List Turn) :
    runTurns (.sequencer :: .sequencer :: ts) s = runTurns ts s.scanStart :=
  (runTurns_idle_cons hseq hgie (lineBit_of_eq_ones hie _) button _).trans
    (runTurns_dispatchButton_cons (s := s.takeInterrupt) rfl button ts)

theorem runTurns_closed (hseq : s.seq = Code.clrAll) :
    runTurns [.sequencer, .sequencer] s = .next { s.closed with agenda := [] } :=
  (runTurns_clrAll_cons hseq _).trans (runTurns_ret_cons rfl [])

/-! ## A scan with the environment silent -/

/-- A position of the scan reads the level that the line has throughout (R116, R118). -/
theorem runTurns_scanPosition_cons (hseq : s.seq = Code.scanDrive) (ts : List Turn) :
    runTurns (.sequencer :: .sequencer :: ts) s = runTurns ts (s.scanPosition (s.lineRead .buttonArray)) :=
  (runTurns_sequencer_cons (i := .scanDrive) (congrArg CodeWord.seq4 hseq.symm) .scanDrive _).trans
    (runTurns_sequencer_cons (i := .scanSample) rfl (.scanSample _) ts)

theorem runTurns_scanPosition_of_more {position : BitVec 2} {level : Bool} (hseq : s.seq = Code.scanDrive)
    (hidx : s.idx = position) (hout : s.out = sel ++ s.params.leds) (more : position ≠ lastPosition)
    (hlevel : s.lineRead .buttonArray = level) (ts : List Turn) :
    runTurns (.sequencer :: .sequencer :: ts) s = runTurns ts { s with
      out := (1#4 <<< position.toNat) ++ s.params.leds
      srvis := (1#4 <<< position.toNat) ++ s.params.leds
      trace := s.trace ++ positionEvents s.params.leds position level
      any := s.any || level
      idx := nextPosition position
      seq := Code.scanDrive } := by
  rw [runTurns_scanPosition_cons hseq, hlevel, scanPosition_of_more hidx hout more]

/-- Nine turns of the sequencer alone make a scan that reads one level at every position (R115 to R121). -/
theorem runTurns_scan_of_level {level : Bool} (hseq : s.seq = Code.scanDrive) (hidx : s.idx = 0#2)
    (hout : s.out = sel ++ s.params.leds) (hlevel : s.lineRead .buttonArray = level) (ts : List Turn) :
    runTurns (List.replicate 9 Turn.sequencer ++ ts) s = runTurns ts (s.scanned level level level level) := by
  subst hlevel
  simp only [List.replicate, List.cons_append, List.nil_append]
  refine Eq.trans (runTurns_scanPosition_of_more hseq hidx hout (by decide) rfl _) ?_
  refine Eq.trans (runTurns_scanPosition_of_more (sel := 0x1#4) (position := 1#2) rfl rfl rfl (by decide) rfl _) ?_
  refine Eq.trans (runTurns_scanPosition_of_more (sel := 0x2#4) (position := 2#2) rfl rfl rfl (by decide) rfl _) ?_
  refine Eq.trans (runTurns_scanPosition_cons rfl _) ?_
  refine Eq.trans (runTurns_sequencer_cons (i := .restore) rfl (.restore _) _) ?_
  rw [afterRestore_scanPosition_of_last (sel := 0x4#4) rfl rfl, State.scanned, scanTrace_eq_positions]
  simp only [← List.append_assoc]
  rfl

/-! ## The wait -/

/-- Without a bound a turn of the sequencer with the line high is one asserted poll (R130). -/
theorem runTurns_heldPolls (hseq : s.seq = Code.awaitRelease) (hn : s.params.tRelease = none)
    (high : s.lineRead .buttonArray = true) (k : Nat) (ts : List Turn) :
    runTurns (List.replicate k Turn.sequencer ++ ts) s =
      runTurns ts { s with trace := s.trace ++ List.replicate k (Event.poll true) } := by
  induction k generalizing s with
  | zero => simp
  | succ k ih =>
    have poll : runTurns (.sequencer :: (List.replicate k Turn.sequencer ++ ts)) s =
        runTurns (List.replicate k Turn.sequencer ++ ts) ((s.emit (.poll true)).goto Code.awaitRelease) :=
      runTurns_sequencer_cons (i := .awaitRelease) (congrArg CodeWord.seq4 hseq.symm) (.pollHeld_of_unbounded hn high) _
    rw [List.replicate_succ, List.cons_append, poll, ih (s := (s.emit (.poll true)).goto Code.awaitRelease) rfl hn high,
      List.replicate_succ, List.append_cons s.trace, State.goto, State.emit, hseq]

/-- A poll that reads the line low ends the wait (R130). -/
theorem runTurns_pollReleased_cons (hseq : s.seq = Code.awaitRelease) (low : s.lineRead .buttonArray = false)
    (ts : List Turn) :
    runTurns (.sequencer :: ts) s = runTurns ts ((s.emit (.poll false)).goto Code.clrAll) :=
  runTurns_sequencer_cons (i := .awaitRelease) (congrArg CodeWord.seq4 hseq.symm) (.pollReleased low) ts

/-- The state that the FALL of the line and the poll after it leave: the wait is over (R130, R141). -/
def State.released (s : State) : State :=
  ({ s with lvl := setLineBit s.lvl .buttonArray false }.emit (.poll false)).goto Code.clrAll

/-- With rising sense the FALL of the line ends the wait at the next poll, and the invocation with it (R133). -/
theorem runTurns_release (hseq : s.seq = Code.awaitRelease) (rising : edgeIsRising s .buttonArray = true)
    (high : s.lineRead .buttonArray = true) :
    runTurns [.environment 0b00#2, .sequencer, .sequencer, .sequencer] s =
      .next { s.released.closed with agenda := [] } := by
  have fall : Effect s (decodeEvt2 0b00#2) { s with lvl := setLineBit s.lvl .buttonArray false } :=
    .fallRising high rising
  calc runTurns [.environment 0b00#2, .sequencer, .sequencer, .sequencer] s
    _ = runTurns [.sequencer, .sequencer, .sequencer] _ := runTurns_environment_cons fall _
    _ = runTurns [.sequencer, .sequencer] s.released :=
      runTurns_pollReleased_cons (by exact hseq) (by exact lineBit_setLineBit_same s.lvl _ _) _
    _ = .next { s.released.closed with agenda := [] } := runTurns_closed rfl

/-- A wait without a bound makes asserted polls until the FALL of the line, after which the invocation ends (R130). -/
theorem runTurns_wait_released (hseq : s.seq = Code.awaitRelease) (hn : s.params.tRelease = none)
    (rising : edgeIsRising s .buttonArray = true) (high : s.lineRead .buttonArray = true) (k : Nat) :
    runTurns (List.replicate k Turn.sequencer ++
      [Turn.environment 0b00#2, Turn.sequencer, Turn.sequencer, Turn.sequencer]) s =
      .next { ({ s with trace := s.trace ++ List.replicate k (Event.poll true) }).released.closed with agenda := [] } :=
  (runTurns_heldPolls hseq hn high k _).trans
    (runTurns_release (s := { s with trace := s.trace ++ List.replicate k (Event.poll true) }) hseq rising high)

/-- The turns of an invocation held for `k` polls: acceptance, scan, polls, and the FALL with what follows it (R226). -/
theorem heldTurns_eq (k : Nat) :
    List.replicate (11 + k) Turn.sequencer ++ [Turn.environment 0b00#2] ++ List.replicate 3 Turn.sequencer =
      Turn.sequencer :: Turn.sequencer :: (List.replicate 9 Turn.sequencer ++ (List.replicate k Turn.sequencer ++
        [Turn.environment 0b00#2, Turn.sequencer, Turn.sequencer, Turn.sequencer])) := by
  rw [show 11 + k = 2 + (9 + k) by omega, List.replicate_add, List.replicate_add]
  simp [List.replicate]

end Sys2Proof.Machine

/-! ## The obligations -/

open Sys2Proof Sys2Proof.Machine

/-- Settles O50: the start of the scan, a scan that reads the line high, the polls, the FALL and the poll that sees it,
and the close of the invocation. -/
theorem heldInvocationTakesFourteenPlusPolls : Obligations.HeldInvocationTakesFourteenPlusPolls := by
  intro s k hseq hgie hie hedge button high hout hn
  have start : s.scanStart.out = 0#4 ++ s.scanStart.params.leds := hout
  have rising : edgeIsRising s .buttonArray = true := edgeIsRising_of_bothRising hedge _
  rw [heldTurns_eq, runTurns_scanStart hseq hgie hie button, runTurns_scan_of_level rfl rfl start high,
    runTurns_wait_released (s := s.scanStart.scanned true true true true) rfl hn rising high]
  simp [State.closed, State.released, State.scanned, State.scanStart, hseq, hgie, hout, hn, setLineBit, lineMask]
end

section
/-! SUPPORT. Invariants of a run, and the invocation routed to the scanner with the sense line low throughout, under
every interleaving: what an event leaves of a low line, its start, its scan and its end (O49). -/

namespace Sys2Proof.Machine

variable {s t u : State} {i : Instr} {l : Line} {w : BitVec 2} {ts : List Turn}

/-! ## Invariants of a run -/

/-- What every operation and every allowed event keeps holds at the end of a run of them from a defined code. -/
theorem invariant_of_runTurns {P : State → Prop} {allowed : Instr → Prop}
    (kept : ∀ s i t, P s → allowed i → Effect s i t → P t)
    (operations : ∀ i, i.isSequencer = true → allowed i) (hs : P s) (hseq : s.seq.toNat ≤ 0xC) (hts : Turn.reset ∉ ts)
    (events : ∀ w, .environment w ∈ ts → allowed (decodeEvt2 w)) (hrun : runTurns ts s = .next t) :
    ∃ u, P u ∧ t = { u with agenda := [] } := by
  have hend : ∃ u, (P u ∧ u.seq.toNat ≤ 0xC) ∧ ∀ rest, runTurns (ts ++ rest) s = runTurns rest u := by
    refine runTurns_interleaved (P := fun _ u => P u ∧ u.seq.toNat ≤ 0xC) (allowed := fun w => allowed (decodeEvt2 w))
      ?_ ?_ ⟨hs, hseq⟩ ⟨rfl, hts⟩ events
    · rintro k s ⟨hs, hseq⟩
      obtain ⟨i, hi⟩ := (wf_iff_exists_decode (.seq4 s.seq)).mp (decide_eq_true hseq)
      obtain ⟨selected, hsequencer⟩ := encode_of_decodeSeq4 s.seq i hi
      obtain ⟨t, e⟩ := exists_effect i s
      exact ⟨i, t, selected, e, kept s i t hs (operations i hsequencer) e, e.keeps_seq_defined hseq⟩
    · rintro k s t w ⟨hs, hseq⟩ hw e
      exact ⟨kept s _ t hs hw e, e.keeps_seq_defined hseq⟩
  obtain ⟨u, ⟨hu, -⟩, hrun'⟩ := hend
  exact ⟨u, hu, Host.Outcome.next.inj (hrun.symm.trans (runTurns_eq_next hrun'))⟩

/-! ## A low line -/

/-- An event other than the RISE of a low line leaves the line's level and flag (R140, R141, R144). -/
theorem Effect.event_of_low (h : Effect s i t) (hi : i.isSequencer = false) (hrise : i ≠ .rise l)
    (low : s.lineRead l = false) : lineBit t.lvl l = lineBit s.lvl l ∧ lineBit t.pend l = lineBit s.pend l := by
  cases i with
  | rise k => exact h.event_other_line (.inl rfl) fun hk => hrise (hk ▸ rfl)
  | fall k =>
    by_cases hk : l = k
    · subst hk
      rw [h.unique (.fallHeld low)]
      exact ⟨rfl, rfl⟩
    · exact h.event_other_line (.inr rfl) hk
  | _ => cases hi

theorem decodeEvt2_ne_rise_buttonArray (hw : w ≠ 0b10#2) : decodeEvt2 w ≠ .rise .buttonArray := by
  revert w; decide

/-- From DISPATCH on, with the sense line low: the line and its flag are low, and no position has read asserted. -/
structure Unpressed (s : State) : Prop where
  low : s.lineRead .buttonArray = false
  flag : lineBit s.pend .buttonArray = false
  any : s.any = false

/-- Everything but the RISE of the sense line keeps it unpressed. -/
theorem Unpressed.kept (h : Unpressed s) (hi : i ≠ .rise .buttonArray) (e : Effect s i t) : Unpressed t := by
  cases hsequencer : i.isSequencer with
  | false =>
    obtain ⟨hlevel, hflag⟩ := e.event_of_low hsequencer hi h.low
    refine ⟨hlevel.trans h.low, hflag.trans h.flag, ?_⟩
    rw [e.event_frame hsequencer]
    exact h.any
  | true =>
    cases e with
    | dispatchButton => exact ⟨h.low, lineBit_setLineBit_same _ _ _, rfl⟩
    | dispatchEncoder => exact ⟨h.low, (lineBit_setLineBit_other _ _ _ _ (by decide)).trans h.flag, h.any⟩
    | cfgClr | clrAll => exact ⟨h.low, by simp, h.any⟩
    | sampleLast | sampleNext => exact ⟨h.low, h.flag, by simp [h.any, h.low]⟩
    | riseHeld | riseRising | riseFree | fallHeld | fallRising | fallFree => cases hsequencer
    | _ => exact ⟨h.low, h.flag, h.any⟩

/-- A run without a RISE of the sense line keeps it unpressed. -/
theorem Unpressed.of_runTurns (h : Unpressed s) (hseq : s.seq.toNat ≤ 0xC) (hts : Turn.reset ∉ ts)
    (hrise : .environment 0b10#2 ∉ ts) (hrun : runTurns ts s = .next t) : Unpressed t := by
  obtain ⟨u, hu, rfl⟩ := invariant_of_runTurns (allowed := (· ≠ .rise .buttonArray)) (fun _ _ _ => Unpressed.kept)
    (by rintro i hi rfl; cases hi) h hseq hts
    (fun w hw => decodeEvt2_ne_rise_buttonArray fun h => hrise (h ▸ hw)) hrun
  exact ⟨hu.low, hu.flag, hu.any⟩

/-! ## Clear flags -/

/-- No flag is set and both senses are rising. -/
structure FlagsClear (s : State) : Prop where
  rising : s.edge = 0b00#2
  clear : s.pend = 0b00#2

/-- Everything but a RISE keeps the flags clear (R181). -/
theorem FlagsClear.kept (h : FlagsClear s) (hi : ∀ l, i ≠ .rise l) (e : Effect s i t) : FlagsClear t := by
  constructor
  · by_cases hc : i = .cfgEdge
    · subst hc
      cases e
      rfl
    · rw [e.edge_eq hc, h.rising]
  · by_contra hset
    obtain ⟨l, hl⟩ := (ne_zero_iff_exists_lineBit _).mp hset
    have hno : lineBit s.pend l = false := by cases l <;> simp [h.clear]
    have rising : lineBit s.edge l = false := by cases l <;> simp [h.rising]
    exact hi l ((pendingFlagWriters i s t l (exec_of_effect e) rising).1 hno hl)

theorem FlagsClear.of_runTurns (h : FlagsClear s) (hseq : s.seq.toNat ≤ 0xC) (hts : Turn.reset ∉ ts)
    (hbutton : .environment 0b10#2 ∉ ts) (hencoder : .environment 0b11#2 ∉ ts) (hrun : runTurns ts s = .next t) :
    FlagsClear t := by
  have events : ∀ w, .environment w ∈ ts → ∀ l, decodeEvt2 w ≠ .rise l := by
    intro w hw l
    rw [decodeEvt2_eq_fall w (fun h => hbutton (h ▸ hw)) fun h => hencoder (h ▸ hw)]
    nofun
  obtain ⟨u, hu, rfl⟩ := invariant_of_runTurns (allowed := fun i => ∀ l, i ≠ .rise l) (fun _ _ _ => FlagsClear.kept)
    (by rintro i hi l rfl; cases hi) h hseq hts events hrun
  exact ⟨hu.rising, hu.clear⟩

/-! ## The parts of the invocation -/

/-- `QuietDrift s u`: `u` is `s` up to a drift that leaves the sense line low and its flag as it was. -/
structure QuietDrift (s u : State) : Prop where
  drift : DriftsTo s u
  low : u.lineRead .buttonArray = false
  flag : lineBit u.pend .buttonArray = lineBit s.pend .buttonArray

theorem QuietDrift.event (h : QuietDrift s t) (hw : w ≠ 0b10#2) (e : Effect t (decodeEvt2 w) u) : QuietDrift s u := by
  obtain ⟨hlevel, hflag⟩ := e.event_of_low (isSequencer_decodeEvt2 w) (decodeEvt2_ne_rise_buttonArray hw) h.low
  exact ⟨h.drift.event e, hlevel.trans h.low, hflag.trans h.flag⟩

/-- Events alone, none of them the RISE of the low sense line, make a quiet drift. -/
theorem runTurns_events_of_low (low : s.lineRead .buttonArray = false) (hts : interleaves 0 ts)
    (hrise : .environment 0b10#2 ∉ ts) :
    ∃ u, QuietDrift s u ∧ ∀ rest, runTurns (ts ++ rest) s = runTurns rest u := by
  have hend : ∃ u, (0 = 0 ∧ QuietDrift s u) ∧ ∀ rest, runTurns (ts ++ rest) s = runTurns rest u :=
    runTurns_interleaved (P := fun k u => k = 0 ∧ QuietDrift s u) (allowed := (· ≠ 0b10#2)) (fun _ _ h => nomatch h.1)
      (fun _ _ _ _ h hw e => ⟨h.1, h.2.event hw e⟩) ⟨rfl, .refl s, low, rfl⟩ hts fun w hw h => hrise (h ▸ hw)
  obtain ⟨u, ⟨-, d⟩, hrun⟩ := hend
  exact ⟨u, d, hrun⟩

/-- Where an invocation starts that is routed to the scanner and, the line staying low, sees no press (R226). -/
structure UnpressedStart (s : State) : Prop where
  idle : s.seq = Code.idle
  gie : s.gie = true
  ie : s.ie = 0b11#2
  flag : lineBit s.pend .buttonArray = true
  low : s.lineRead .buttonArray = false
  out : s.out = s.params.defaultPattern

theorem DriftsTo.takeInterrupt (d : DriftsTo s t) : DriftsTo s.takeInterrupt t.takeInterrupt := by
  obtain ⟨levels, flags, count, rfl⟩ := d
  exact ⟨levels, flags, count, rfl⟩

theorem DriftsTo.scanned (d : DriftsTo s t) (s0 s1 s2 s3 : Bool) :
    DriftsTo (s.scanned s0 s1 s2 s3) (t.scanned s0 s1 s2 s3) := by
  obtain ⟨levels, flags, count, rfl⟩ := d
  exact ⟨levels, flags, count, rfl⟩

theorem DriftsTo.closed (d : DriftsTo s t) : DriftsTo s.closed t.closed := by
  obtain ⟨levels, flags, count, rfl⟩ := d
  exact ⟨levels, 0b00#2, count, rfl⟩

/-- The interrupt is taken and routed to the scanner, whatever else the environment does before either turn. -/
theorem UnpressedStart.runTurns_scanStart (h : UnpressedStart s) (hts : interleaves 1 ts)
    (hrise : .environment 0b10#2 ∉ ts) :
    ∃ u, DriftsTo s.scanStart u ∧ Unpressed u ∧ ∀ rest, runTurns (ts ++ .sequencer :: rest) s = runTurns rest u := by
  obtain ⟨before, after, rfl, hbefore, hafter⟩ := exists_interleaves_split (k := 0) (n := 0) hts
  obtain ⟨u, ⟨du, hlow, hflag⟩, runIdle⟩ := runTurns_events_of_low h.low hbefore fun h => hrise (by simp [h])
  obtain ⟨v, ⟨dv, hlow', hflag'⟩, runDispatch⟩ :=
    runTurns_events_of_low (s := u.takeInterrupt) hlow hafter fun h => hrise (by simp [h])
  obtain ⟨levels, flags, count, rfl⟩ := du.takeInterrupt.trans dv
  have button : lineBit u.pend .buttonArray = true := hflag.trans h.flag
  obtain ⟨hgie, hie⟩ : u.gie = true ∧ u.ie = 0b11#2 := by
    obtain ⟨_, _, _, rfl⟩ := du
    exact ⟨h.gie, h.ie⟩
  refine ⟨_, ⟨levels, setLineBit flags .buttonArray false, count, rfl⟩, ⟨hlow', lineBit_setLineBit_same _ _ _, rfl⟩,
    fun rest => ?_⟩
  calc runTurns (before ++ .sequencer :: after ++ .sequencer :: rest) s
    _ = runTurns (.sequencer :: (after ++ .sequencer :: rest)) u := by rw [List.append_assoc]; exact runIdle _
    _ = runTurns (after ++ .sequencer :: rest) u.takeInterrupt :=
      runTurns_idle_cons (du.seq_eq.trans h.idle) hgie (lineBit_of_eq_ones hie _) button _
    _ = _ := runDispatch _
    _ = _ := runTurns_dispatchButton_cons (by rfl) (hflag'.trans button) rest

/-- A scan of the line kept low reads low at every position: none of the samples set `ANY` (R118). -/
theorem Unpressed.runTurns_scan {sel : BitVec 4} (h : Unpressed s) (hseq : s.seq = Code.scanDrive) (hidx : s.idx = 0#2)
    (hout : s.out = sel ++ s.params.leds) (hts : interleaves 9 ts) (hrise : .environment 0b10#2 ∉ ts) :
    ∃ u, DriftsTo (s.scanned false false false false) u ∧ Unpressed u ∧
      ∀ rest, runTurns (ts ++ rest) s = runTurns rest u := by
  obtain ⟨s0, s1, s2, s3, u, d, hrun⟩ := Machine.runTurns_scan hseq hidx hout hts
  have hu := h.of_runTurns (by rw [hseq]; decide) hts.2 hrise (runTurns_eq_next hrun)
  have hany : (s.any || s0 || s1 || s2 || s3) = false := by
    obtain ⟨levels, flags, count, rfl⟩ := d
    exact hu.any
  obtain ⟨-, rfl, rfl, rfl, rfl⟩ : s.any = false ∧ s0 = false ∧ s1 = false ∧ s2 = false ∧ s3 = false := by
    simpa [and_assoc] using hany
  exact ⟨u, d, ⟨hu.low, hu.flag, hu.any⟩, hrun⟩

/-- CLR_ALL and RETURN close the invocation, whatever the environment does between and after them (R104, R106). -/
theorem runTurns_closed_of_interleaving (hseq : s.seq = Code.clrAll) (hts : interleaves 1 ts) :
    ∃ u, DriftsTo s.closed u ∧ runTurns (.sequencer :: ts) s = .next { u with agenda := [] } := by
  obtain ⟨u, d, hrun⟩ := runTurns_of_ignoresLines (.refl (s.clearAllPend.goto Code.ret)) rfl rfl .ret hts
  exact ⟨u, d, (runTurns_clrAll_cons hseq ts).trans (runTurns_eq_next hrun)⟩

/-- The invocation, split at its CLR_ALL: up to a drift it ends where the scan of four low samples closes; the sense
line is still unpressed, and with rising senses both flags are clear unless `ENCODER_A` rose after CLR_ALL (R105). -/
theorem UnpressedStart.runTurns_invocation (h : UnpressedStart s) {before after : List Turn}
    (hbefore : interleaves 11 before) (hafter : interleaves 1 after)
    (hrise : .environment 0b10#2 ∉ before ++ .sequencer :: after) :
    ∃ u, runTurns (before ++ .sequencer :: after) s = .next { u with agenda := [] } ∧
      DriftsTo (s.scanStart.scanned false false false false).closed u ∧ Unpressed u ∧
      (s.edge = 0b00#2 → .environment 0b11#2 ∉ after → u.pend = 0b00#2) := by
  obtain ⟨start, scan, rfl, hstart, hscan⟩ := exists_interleaves_split (k := 1) (n := 9) hbefore
  have hrises : .environment 0b10#2 ∉ start ∧ .environment 0b10#2 ∉ scan ∧ .environment 0b10#2 ∉ after := by
    simpa [and_assoc] using hrise
  obtain ⟨hriseStart, hriseScan, hriseAfter⟩ := hrises
  obtain ⟨v, dv, hv, runStart⟩ := h.runTurns_scanStart hstart hriseStart
  obtain ⟨hseq, hidx, hout, hedge⟩ : v.seq = Code.scanDrive ∧ v.idx = 0#2 ∧ v.out = 0#4 ++ v.params.leds ∧
      v.edge = s.edge := by
    obtain ⟨_, _, _, rfl⟩ := dv
    exact ⟨rfl, rfl, h.out, rfl⟩
  obtain ⟨x, dx, hx, runScan⟩ := hv.runTurns_scan hseq hidx hout hscan hriseScan
  have hclrAll : x.seq = Code.clrAll := by simp [dx.seq_eq, State.scanned, hv.any]
  obtain ⟨u, du, runClose⟩ := runTurns_closed_of_interleaving hclrAll hafter
  have runReturn := (runTurns_clrAll_cons hclrAll after).symm.trans runClose
  have hdefined : (x.clearAllPend.goto Code.ret).seq.toNat ≤ 0xC := le_rfl
  have hu := (hx.kept (i := .clrAll) (by decide) .clrAll).of_runTurns hdefined hafter.2 hriseAfter runReturn
  refine ⟨u, ?_, ((dv.scanned _ _ _ _).trans dx).closed.trans du, ⟨hu.low, hu.flag, hu.any⟩, ?_⟩
  · rw [List.append_assoc, List.cons_append, runStart, runScan, runClose]
  · intro hrising hencoder
    have cleared : FlagsClear (x.clearAllPend.goto Code.ret) := ⟨dx.edge_eq.trans (hedge.trans hrising), rfl⟩
    exact (cleared.of_runTurns hdefined hafter.2 hriseAfter hencoder runReturn).clear

end Sys2Proof.Machine

/-! ## The obligations -/

open Sys2Proof Sys2Proof.Machine

/-- Settles O49: split at its twelfth turn, the invocation ends where the scan of four low samples closes, up to a
drift; a split that is given at that turn leads to the same end, and the flags are read off there. -/
theorem unpressedInvocationTakesThirteenTurns : Obligations.UnpressedInvocationTakesThirteenTurns := by
  intro s ts hseq hgie hie hflag hlow hout hts hrise
  have h : UnpressedStart s := ⟨hseq, hgie, hie, hflag, hlow, hout⟩
  obtain ⟨before, after, rfl, hbefore, hafter⟩ := exists_interleaves_split (k := 11) (n := 1) hts
  obtain ⟨u, hrun, ⟨levels, flags, count, rfl⟩, hu, -⟩ := h.runTurns_invocation hbefore hafter hrise
  refine ⟨_, hrun, ?_, hu.low, hu.flag, fun before' after' hsplit hcount hrising hencoder => ?_⟩
  · simp [State.closed, State.scanned, State.scanStart, hseq, hgie, hout]
  · rw [hsplit] at hts hrise hrun
    obtain ⟨hbefore', hafter'⟩ := interleaves_split (n := 1) hts hcount
    obtain ⟨u', hrun', -, -, hclear⟩ := h.runTurns_invocation hbefore' hafter' hrise
    rw [Host.Outcome.next.inj (hrun.symm.trans hrun')]
    exact hclear hrising hencoder
end
